-- ==== Sys2Proof/Word.lean ====
section
/-! DEFINITION. The widths of the machine: bytes, words, addresses carried by an instruction, register numbers. -/

namespace Sys2Proof

/-- 8 bits: a general register, a timer, a cell of memory (R20, R25, R28). Every value is unsigned (R7). -/
abbrev Byte := BitVec 8

/-- 16 bits: an instruction word, `I`, `PC`, a stack entry (R22, R23, R27, R90). -/
abbrev Word := BitVec 16

/-- The 12-bit address field `nnn` (R91). -/
abbrev Addr12 := BitVec 12

/-- The 4-bit immediate `n` (R91). -/
abbrev Nibble := BitVec 4

/-- A register number 0 to 15: "no register index exceeds 15" (R20). -/
abbrev RegIdx := Fin 16

end Sys2Proof
end

