-- ==== Sys2Proof/Config.lean ====
section
/-! DEFINITION. The parameters of the hardware (R6) and the inputs the spec leaves free (R35, R36). -/

namespace Sys2Proof.Config

/-- `MEM_SIZE`: bytes of memory, addresses 0x000 to 0xFFF (R6, R28). -/
def memSize : Nat := 0x1000

/-- `ENTRY`: the reset value of `PC` and the load address of the program image (R6). -/
def entry : Nat := 0x200

/-- `ROM_MAX`: the longest program image, `MEM_SIZE - ENTRY` bytes (R6). -/
def romMax : Nat := 0xE00

/-- `FONT_SIZE`: 16 glyphs of 5 bytes (R6). -/
def fontSize : Nat := 80

/-- `FONT`, glyphs 0 to 7 (R35). PRESUMED: the source does not print the bytes; these are the spec's default (log 1). -/
def fontLow : List Byte :=
  [0xF0, 0x90, 0x90, 0x90, 0xF0,
   0x20, 0x60, 0x20, 0x20, 0x70,
   0xF0, 0x10, 0xF0, 0x80, 0xF0,
   0xF0, 0x10, 0xF0, 0x10, 0xF0,
   0x90, 0x90, 0xF0, 0x10, 0x10,
   0xF0, 0x80, 0xF0, 0x10, 0xF0,
   0xF0, 0x80, 0xF0, 0x90, 0xF0,
   0xF0, 0x10, 0x20, 0x40, 0x40]

/-- `FONT`, glyphs 8 to F (R35). PRESUMED (log 1). -/
def fontHigh : List Byte :=
  [0xF0, 0x90, 0xF0, 0x90, 0xF0,
   0xF0, 0x90, 0xF0, 0x10, 0xF0,
   0xF0, 0x90, 0xF0, 0x90, 0x90,
   0xE0, 0x90, 0xE0, 0x90, 0xE0,
   0xF0, 0x80, 0x80, 0x80, 0xF0,
   0xE0, 0x90, 0x90, 0x90, 0xE0,
   0xF0, 0x80, 0xF0, 0x80, 0xF0,
   0xF0, 0x80, 0xF0, 0x80, 0x80]

/-- `FONT`: the 80 bytes copied into low memory at every reset; `FONT[5*g + r]` is row `r` of glyph `g` (R35). -/
def font : List Byte := fontLow ++ fontHigh

/-- The 16 key levels on the `keys` port at a step the schedule does not script, when `n` steps have sampled a port: a
free input under no law (R36, R134; DESIGN CHOICE, logs 2 and 10). -/
opaque keysInput : Nat → Word

/-- The byte on the `rnd` port at a step the schedule does not script, when `n` steps have sampled a port: a free draw
under no law (R35, R171; DESIGN CHOICE, logs 2 and 10). -/
opaque rndInput : Nat → Byte

end Sys2Proof.Config
end

