-- ==== Sys2Proof/Syntax.lean ====
section
/-! DEFINITION. The instruction set: one constructor per row of the opcode table (R101, R102). -/

namespace Sys2Proof

/-- An instruction with its operands (R91 to R93), in the order of the table of R101, then the four rows of
unrecognized words (DEDUCED, log 7). Fields the hardware ignores (R99, R100) are no operands and are not kept (DEDUCED, log 8). -/
inductive Instr where
  /-- clear-screen, `00E0` (R190). -/
  | cls
  /-- return, `00EE` (R140). -/
  | ret
  /-- jump, `1nnn` (R141). -/
  | jp (nnn : Addr12)
  /-- call, `2nnn` (R142). -/
  | call (nnn : Addr12)
  /-- skip-eq-byte, `3xkk` (R143). -/
  | seByte (x : RegIdx) (kk : Byte)
  /-- skip-ne-byte, `4xkk` (R144). -/
  | sneByte (x : RegIdx) (kk : Byte)
  /-- skip-eq-reg, `5xy-` (R145). -/
  | seReg (x y : RegIdx)
  /-- load-byte, `6xkk` (R160). -/
  | ldByte (x : RegIdx) (kk : Byte)
  /-- add-byte, `7xkk` (R161). -/
  | addByte (x : RegIdx) (kk : Byte)
  /-- load-reg, `8xy0` (R162). -/
  | ldReg (x y : RegIdx)
  /-- or, `8xy1` (R163). -/
  | orReg (x y : RegIdx)
  /-- and, `8xy2` (R164). -/
  | andReg (x y : RegIdx)
  /-- xor, `8xy3` (R165). -/
  | xorReg (x y : RegIdx)
  /-- add-reg, `8xy4` (R166). -/
  | addReg (x y : RegIdx)
  /-- sub, `8xy5` (R167). -/
  | sub (x y : RegIdx)
  /-- shr, `8x-6` (R169). -/
  | shr (x : RegIdx)
  /-- subn, `8xy7` (R168). -/
  | subn (x y : RegIdx)
  /-- shl, `8x-E` (R170). -/
  | shl (x : RegIdx)
  /-- skip-ne-reg, `9xy-` (R146). -/
  | sneReg (x y : RegIdx)
  /-- load-I, `Annn` (R180). -/
  | ldI (nnn : Addr12)
  /-- jump-v0, `Bnnn` (R147). -/
  | jpV0 (nnn : Addr12)
  /-- random, `Cxkk` (R171). -/
  | rnd (x : RegIdx) (kk : Byte)
  /-- draw, `Dxyn` (R191). -/
  | drw (x y : RegIdx) (n : Nibble)
  /-- skip-key-pressed, `Ex9E` (R200). -/
  | skp (x : RegIdx)
  /-- skip-key-not-pressed, `ExA1` (R201). -/
  | sknp (x : RegIdx)
  /-- read-delay, `Fx07` (R202). -/
  | readDelay (x : RegIdx)
  /-- wait-key, `Fx0A` (R203). -/
  | waitKey (x : RegIdx)
  /-- set-delay, `Fx15` (R204). -/
  | setDelay (x : RegIdx)
  /-- set-sound, `Fx18` (R205). -/
  | setSound (x : RegIdx)
  /-- add-to-I, `Fx1E` (R181). -/
  | addI (x : RegIdx)
  /-- font-address, `Fx29` (R182). -/
  | fontAddr (x : RegIdx)
  /-- store-BCD, `Fx33` (R183). -/
  | storeBcd (x : RegIdx)
  /-- store-registers, `Fx55` (R184). -/
  | storeRegs (x : RegIdx)
  /-- load-registers, `Fx65` (R185). -/
  | loadRegs (x : RegIdx)
  /-- unrecognized words of family 0, `0nnn` other than `00E0` and `00EE` (R210, R211). -/
  | sys (nnn : Addr12)
  /-- unrecognized words of family 8 (R96, R210). -/
  | unrec8 (x y : RegIdx) (n : Nibble)
  /-- unrecognized words of family E (R97, R210). -/
  | unrecE (x : RegIdx) (kk : Byte)
  /-- unrecognized words of family F (R98, R210). -/
  | unrecF (x : RegIdx) (kk : Byte)
deriving DecidableEq, Repr

end Sys2Proof
end

