-- ==== Sys2Proof/WellFormed.lean ====
section
/-! DEFINITION. Which terms of `Instr` stand for instruction words. The types bound every operand; only the rows of
unrecognized words are limited further, to the words no instruction row selects (R102). -/

namespace Sys2Proof

/-- The low nibbles family 8 assigns to an instruction (R96). -/
def assigned8 : List Nibble := [0x0, 0x1, 0x2, 0x3, 0x4, 0x5, 0x6, 0x7, 0xE]

/-- The low bytes family E assigns to an instruction (R97). -/
def assignedE : List Byte := [0x9E, 0xA1]

/-- The low bytes family F assigns to an instruction (R98). -/
def assignedF : List Byte := [0x07, 0x0A, 0x15, 0x18, 0x1E, 0x29, 0x33, 0x55, 0x65]

/-- A term stands for a word of its row: an unrecognized row never holds a word of an instruction row (R102). -/
def Instr.wf : Instr → Bool
  | .sys nnn => nnn != 0x0E0#12 && nnn != 0x0EE#12
  | .unrec8 _ _ n => !assigned8.contains n
  | .unrecE _ kk => !assignedE.contains kk
  | .unrecF _ kk => !assignedF.contains kk
  | .cls | .ret | .jp _ | .call _ | .seByte _ _ | .sneByte _ _ | .seReg _ _ | .ldByte _ _ | .addByte _ _
  | .ldReg _ _ | .orReg _ _ | .andReg _ _ | .xorReg _ _ | .addReg _ _ | .sub _ _ | .shr _ | .subn _ _ | .shl _
  | .sneReg _ _ | .ldI _ | .jpV0 _ | .rnd _ _ | .drw _ _ _ | .skp _ | .sknp _ | .readDelay _ | .waitKey _
  | .setDelay _ | .setSound _ | .addI _ | .fontAddr _ | .storeBcd _ | .storeRegs _ | .loadRegs _ => true

/-- One of the 34 instruction rows of R101, not one of the four rows of unrecognized words (R102). -/
def Instr.recognized : Instr → Bool
  | .sys _ | .unrec8 _ _ _ | .unrecE _ _ | .unrecF _ _ => false
  | .cls | .ret | .jp _ | .call _ | .seByte _ _ | .sneByte _ _ | .seReg _ _ | .ldByte _ _ | .addByte _ _
  | .ldReg _ _ | .orReg _ _ | .andReg _ _ | .xorReg _ _ | .addReg _ _ | .sub _ _ | .shr _ | .subn _ _ | .shl _
  | .sneReg _ _ | .ldI _ | .jpV0 _ | .rnd _ _ | .drw _ _ _ | .skp _ | .sknp _ | .readDelay _ | .waitKey _
  | .setDelay _ | .setSound _ | .addI _ | .fontAddr _ | .storeBcd _ | .storeRegs _ | .loadRegs _ => true

end Sys2Proof
end

