-- ==== Sys2Proof/Decode.lean ====
section
/-! DEFINITION. From bytes to instructions and back: field extraction (R91), dispatch (R94 to R100), the encoder, and
the map of R101 as a table. -/

namespace Sys2Proof

/-! ### Fields (R91) -/

/-- `op = w[15:12]`. -/
def fieldOp (w : Word) : Nibble := w.extractLsb' 12 4

/-- `x = w[11:8]`. -/
def fieldX (w : Word) : RegIdx := (w.extractLsb' 8 4).toFin

/-- `y = w[7:4]`. -/
def fieldY (w : Word) : RegIdx := (w.extractLsb' 4 4).toFin

/-- `n = w[3:0]`. -/
def fieldN (w : Word) : Nibble := w.extractLsb' 0 4

/-- `kk = w[7:0]`. -/
def fieldKk (w : Word) : Byte := w.extractLsb' 0 8

/-- `nnn = w[11:0]`. -/
def fieldNnn (w : Word) : Addr12 := w.extractLsb' 0 12

/-! ### Dispatch (R94 to R100) -/

/-- Family 0 compares the whole word (R95). -/
def decode0 (w : Word) : Instr :=
  if w = 0x00E0#16 then .cls
  else if w = 0x00EE#16 then .ret
  else .sys (fieldNnn w)

/-- Family 8 looks at the low nibble (R96); the shifts ignore `y` (R100). -/
def decode8 (w : Word) : Instr :=
  match (fieldN w).toNat with
  | 0x0 => .ldReg (fieldX w) (fieldY w)
  | 0x1 => .orReg (fieldX w) (fieldY w)
  | 0x2 => .andReg (fieldX w) (fieldY w)
  | 0x3 => .xorReg (fieldX w) (fieldY w)
  | 0x4 => .addReg (fieldX w) (fieldY w)
  | 0x5 => .sub (fieldX w) (fieldY w)
  | 0x6 => .shr (fieldX w)
  | 0x7 => .subn (fieldX w) (fieldY w)
  | 0xE => .shl (fieldX w)
  | _ => .unrec8 (fieldX w) (fieldY w) (fieldN w)

/-- Family E looks at the whole low byte (R97). -/
def decodeE (w : Word) : Instr :=
  if fieldKk w = 0x9E#8 then .skp (fieldX w)
  else if fieldKk w = 0xA1#8 then .sknp (fieldX w)
  else .unrecE (fieldX w) (fieldKk w)

/-- Family F looks at the whole low byte (R98). -/
def decodeF (w : Word) : Instr :=
  if fieldKk w = 0x07#8 then .readDelay (fieldX w)
  else if fieldKk w = 0x0A#8 then .waitKey (fieldX w)
  else if fieldKk w = 0x15#8 then .setDelay (fieldX w)
  else if fieldKk w = 0x18#8 then .setSound (fieldX w)
  else if fieldKk w = 0x1E#8 then .addI (fieldX w)
  else if fieldKk w = 0x29#8 then .fontAddr (fieldX w)
  else if fieldKk w = 0x33#8 then .storeBcd (fieldX w)
  else if fieldKk w = 0x55#8 then .storeRegs (fieldX w)
  else if fieldKk w = 0x65#8 then .loadRegs (fieldX w)
  else .unrecF (fieldX w) (fieldKk w)

/-- "a pure dispatch table keyed by the top 4 bits of the instruction word" (R94). Total: every word decodes (R107).
Families 5 and 9 ignore the low nibble (R99). -/
def decodeWord (w : Word) : Instr :=
  match (fieldOp w).toNat with
  | 0x0 => decode0 w
  | 0x1 => .jp (fieldNnn w)
  | 0x2 => .call (fieldNnn w)
  | 0x3 => .seByte (fieldX w) (fieldKk w)
  | 0x4 => .sneByte (fieldX w) (fieldKk w)
  | 0x5 => .seReg (fieldX w) (fieldY w)
  | 0x6 => .ldByte (fieldX w) (fieldKk w)
  | 0x7 => .addByte (fieldX w) (fieldKk w)
  | 0x8 => decode8 w
  | 0x9 => .sneReg (fieldX w) (fieldY w)
  | 0xA => .ldI (fieldNnn w)
  | 0xB => .jpV0 (fieldNnn w)
  | 0xC => .rnd (fieldX w) (fieldKk w)
  | 0xD => .drw (fieldX w) (fieldY w) (fieldN w)
  | 0xE => decodeE w
  | _ => decodeF w

/-- Why a byte sequence is no instruction. -/
inductive DecodeError where
  /-- fewer than the two bytes of an instruction (R90) -/
  | truncated
deriving DecidableEq, Repr

/-- Two bytes, the first in bits 15 to 8 (R66, R90). -/
def wordOfBytes (hi lo : Byte) : Word := hi ++ lo

/-- The instruction at the head of a byte sequence, with the bytes after it (R90). -/
def decode : List Byte → Except DecodeError (Instr × List Byte)
  | hi :: lo :: rest => .ok (decodeWord (wordOfBytes hi lo), rest)
  | _ => .error .truncated

/-! ### Encoder, from the patterns of R101; ignored nibbles are zero (R105) -/

/-- Format `NNN` (R92). -/
def formatNNN (op : Nat) (nnn : Addr12) : Word := BitVec.ofNat 16 (op * 0x1000 + nnn.toNat)

/-- Format `XKK` (R92); format `X` is the same with a fixed low byte. -/
def formatXKK (op : Nat) (x : RegIdx) (kk : Byte) : Word := BitVec.ofNat 16 (op * 0x1000 + x.val * 0x100 + kk.toNat)

/-- Formats `XY` and `XYN`, "one layout" (R92). -/
def formatXYN (op : Nat) (x y : RegIdx) (n : Nibble) : Word :=
  BitVec.ofNat 16 (op * 0x1000 + x.val * 0x100 + y.val * 0x10 + n.toNat)

/-- The word of an instruction (R101, R102). -/
def encode : Instr → Word
  | .cls => 0x00E0#16
  | .ret => 0x00EE#16
  | .jp nnn => formatNNN 0x1 nnn
  | .call nnn => formatNNN 0x2 nnn
  | .seByte x kk => formatXKK 0x3 x kk
  | .sneByte x kk => formatXKK 0x4 x kk
  | .seReg x y => formatXYN 0x5 x y 0x0
  | .ldByte x kk => formatXKK 0x6 x kk
  | .addByte x kk => formatXKK 0x7 x kk
  | .ldReg x y => formatXYN 0x8 x y 0x0
  | .orReg x y => formatXYN 0x8 x y 0x1
  | .andReg x y => formatXYN 0x8 x y 0x2
  | .xorReg x y => formatXYN 0x8 x y 0x3
  | .addReg x y => formatXYN 0x8 x y 0x4
  | .sub x y => formatXYN 0x8 x y 0x5
  | .shr x => formatXYN 0x8 x 0 0x6
  | .subn x y => formatXYN 0x8 x y 0x7
  | .shl x => formatXYN 0x8 x 0 0xE
  | .sneReg x y => formatXYN 0x9 x y 0x0
  | .ldI nnn => formatNNN 0xA nnn
  | .jpV0 nnn => formatNNN 0xB nnn
  | .rnd x kk => formatXKK 0xC x kk
  | .drw x y n => formatXYN 0xD x y n
  | .skp x => formatXKK 0xE x 0x9E
  | .sknp x => formatXKK 0xE x 0xA1
  | .readDelay x => formatXKK 0xF x 0x07
  | .waitKey x => formatXKK 0xF x 0x0A
  | .setDelay x => formatXKK 0xF x 0x15
  | .setSound x => formatXKK 0xF x 0x18
  | .addI x => formatXKK 0xF x 0x1E
  | .fontAddr x => formatXKK 0xF x 0x29
  | .storeBcd x => formatXKK 0xF x 0x33
  | .storeRegs x => formatXKK 0xF x 0x55
  | .loadRegs x => formatXKK 0xF x 0x65
  | .sys nnn => formatNNN 0x0 nnn
  | .unrec8 x y n => formatXYN 0x8 x y n
  | .unrecE x kk => formatXKK 0xE x kk
  | .unrecF x kk => formatXKK 0xF x kk

/-! ### The opcode map as a table -/

/-- `w AND mask == match`: the word `w` selects the row (R101). -/
abbrev selects (mask mat w : Word) : Prop := w &&& mask = mat

/-- The mask and match of an instruction's row of R101; for the unrecognized rows, of `spec/opcode_table.json`. -/
def rowOf : Instr → Word × Word
  | .cls => (0xFFFF, 0x00E0)
  | .ret => (0xFFFF, 0x00EE)
  | .jp _ => (0xF000, 0x1000)
  | .call _ => (0xF000, 0x2000)
  | .seByte _ _ => (0xF000, 0x3000)
  | .sneByte _ _ => (0xF000, 0x4000)
  | .seReg _ _ => (0xF000, 0x5000)
  | .ldByte _ _ => (0xF000, 0x6000)
  | .addByte _ _ => (0xF000, 0x7000)
  | .ldReg _ _ => (0xF00F, 0x8000)
  | .orReg _ _ => (0xF00F, 0x8001)
  | .andReg _ _ => (0xF00F, 0x8002)
  | .xorReg _ _ => (0xF00F, 0x8003)
  | .addReg _ _ => (0xF00F, 0x8004)
  | .sub _ _ => (0xF00F, 0x8005)
  | .shr _ => (0xF00F, 0x8006)
  | .subn _ _ => (0xF00F, 0x8007)
  | .shl _ => (0xF00F, 0x800E)
  | .sneReg _ _ => (0xF000, 0x9000)
  | .ldI _ => (0xF000, 0xA000)
  | .jpV0 _ => (0xF000, 0xB000)
  | .rnd _ _ => (0xF000, 0xC000)
  | .drw _ _ _ => (0xF000, 0xD000)
  | .skp _ => (0xF0FF, 0xE09E)
  | .sknp _ => (0xF0FF, 0xE0A1)
  | .readDelay _ => (0xF0FF, 0xF007)
  | .waitKey _ => (0xF0FF, 0xF00A)
  | .setDelay _ => (0xF0FF, 0xF015)
  | .setSound _ => (0xF0FF, 0xF018)
  | .addI _ => (0xF0FF, 0xF01E)
  | .fontAddr _ => (0xF0FF, 0xF029)
  | .storeBcd _ => (0xF0FF, 0xF033)
  | .storeRegs _ => (0xF0FF, 0xF055)
  | .loadRegs _ => (0xF0FF, 0xF065)
  | .sys _ => (0xF000, 0x0000)
  | .unrec8 _ _ _ => (0xF000, 0x8000)
  | .unrecE _ _ => (0xF000, 0xE000)
  | .unrecF _ _ => (0xF000, 0xF000)

/-! ### The opcode table's own numbering of bits -/

/-- The word the table's bits give: bits at and above `nbits` are 0. -/
def tableWord (nbits w : Nat) : Word := BitVec.ofNat 16 (w % 2 ^ nbits)

/-- The table's word laid out as the hardware stores it, high byte first (R66, R90). -/
def tableBytes (nbits w : Nat) : List Byte :=
  [(tableWord nbits w).extractLsb' 8 8, (tableWord nbits w).extractLsb' 0 8]

/-- What the decoder reads from an instruction whose bits are `w`, numbered as the opcode table numbers them. -/
def decodeTableWord (nbits w : Nat) : Option Instr :=
  match decode (tableBytes nbits w) with
  | .ok (i, _) => some i
  | .error _ => none

end Sys2Proof
end

