-- ==== Sys2Proof/Machine/State.lean ====
section
/-! DEFINITION. The state of the machine as plain data, the ways a step could stop, and the state after reset. -/

namespace Sys2Proof.Machine

/-- The four fatal conditions (R220). -/
inductive FatalCode where
  /-- `STACK_OVERFLOW`: a call at depth 16 (R221). -/
  | stackOverflow
  /-- `STACK_UNDERFLOW`: a return at depth 0 (R222). -/
  | stackUnderflow
  /-- `PC_OOR`: a fetch with `PC > 0xFFE` (R223). -/
  | pcOor
  /-- `MEM_OOR`: a data access above 0xFFF (R224). -/
  | memOor
deriving DecidableEq, Repr

/-- What `raise Fatal(code, info)` carries (R8, R225). -/
structure Fatal where
  code : FatalCode
  info : Word
deriving DecidableEq, Repr

/-- The executor's two states (R31, R121). -/
inductive RunState where
  | running
  | faulted
deriving DecidableEq, Repr

/-- A pulse on one of the two sound outputs (R37). -/
inductive SoundPulse where
  /-- `sound_start` -/
  | start
  /-- `sound_stop` -/
  | stop
deriving DecidableEq, Repr

/-- What the host can do to the core (R120). A scripted `step` carries the levels the host holds on the input ports
`keys` and `rnd` at that step (R36). -/
inductive HostEvent where
  | step (keys : Word) (rnd : Byte)
  | tick
  | reset
  | loadRom (bytes : List Byte)
deriving DecidableEq, Repr

/-- Memory `M`: addresses strictly rising, no entry equal to what an unlisted address reads as (`Memory.wf`, DEDUCED, log 5). -/
abbrev Memory := List Host.Cell

/-- The framebuffer: 32 rows of 64 one-bit pixels, `FB[py][px]` (R29). -/
abbrev Framebuffer := Vector (Vector Bool 64) 32

/-- Everything the spec gives the machine (R20 to R32), and below the line what the model adds: the input ports' levels,
the pulses sent, and the host's schedule (DESIGN CHOICE, logs 2 and 3). -/
structure State where
  /-- `V[0]` to `V[15]` (R20); `V[15]` is `VF` (R21) -/
  v : Vector Byte 16
  /-- the address register `I` (R22) -/
  i : Word
  /-- the program counter (R23) -/
  pc : Word
  /-- the delay timer (R25) -/
  dt : Byte
  /-- the sound timer (R26) -/
  st : Byte
  /-- the stack entries `S[0]` to `S[15]` (R27) -/
  stack : Vector Word 16
  /-- the depth counter `SP`, 0 to 16 (R27) -/
  sp : Fin 17
  /-- memory `M` (R28) -/
  mem : Memory
  /-- the framebuffer `FB` (R29) -/
  fb : Framebuffer
  /-- `TONE`: the last sound transition was a start (R30) -/
  tone : Bool
  /-- `RUN_STATE` (R31) -/
  runState : RunState
  /-- `FAULT_CODE` (R31) -/
  faultCode : BitVec 3
  /-- `FAULT_INFO` (R31) -/
  faultInfo : Word
  /-- `ROM`, the program image kept for reset; `ROM_LEN` is its length (R32) -/
  rom : List Byte
  /-- the level on the `keys` port at the current step (R36); model's own -/
  keys : Word
  /-- the level on the `rnd` port at the current step (R36); model's own -/
  rnd : Byte
  /-- the pulses sent on `sound_start` and `sound_stop` so far, oldest first (R37); model's own -/
  sound : List SoundPulse
  /-- the host's coming events, the next one first; when it is empty the host raises `step` (R120, DESIGN CHOICE, log 3); model's own -/
  schedule : List HostEvent
  /-- how many steps have sampled a port: the index of the next free input (DESIGN CHOICE, logs 2 and 10); model's own -/
  samples : Nat
deriving DecidableEq, Repr

/-- Reasons for `Outcome.fault`. There is none: every condition the spec calls fatal is a transition to `FAULTED`
(R227), which is a next state, and nothing else stops the core (R132; DEDUCED, log 4). Nobody raises one; safe. -/
inductive Fault
deriving DecidableEq, Repr

/-- Reasons for `Outcome.refused`. -/
inductive Refusal where
  /-- Raised by an arm of `exec` for an instruction that has no meaning yet; no arm raises it now. Safe. -/
  | notModelled (mnemonic : String)
deriving DecidableEq, Repr

/-- The state after the first reset, before any `load_rom` (R38, R253; DEDUCED, log 9): memory holds the font and zeros, which is
what unlisted addresses read as. The model's own fields start empty or at zero (DESIGN CHOICE, logs 2 and 3). -/
def State.reset : State where
  v := Vector.replicate 16 0
  i := 0
  pc := BitVec.ofNat 16 Config.entry
  dt := 0
  st := 0
  stack := Vector.replicate 16 0
  sp := 0
  mem := []
  fb := Vector.replicate 32 (Vector.replicate 64 false)
  tone := false
  runState := .running
  faultCode := 0
  faultInfo := 0
  rom := []
  keys := 0
  rnd := 0
  sound := []
  schedule := []
  samples := 0

end Sys2Proof.Machine
end

