-- ==== Sys2Proof/Machine/Ops.lean ====
section
/-! DEFINITION. The named operations over registers, memory, stack and framebuffer (R8), fetching, and taking a fatal
condition (R227). -/

namespace Sys2Proof.Machine

/-- What one event of the core answers. -/
abbrev Result := Host.Outcome State Fault Refusal

/-! ### Registers (R20 to R26) -/

/-- `V[r]`. -/
def State.reg (s : State) (r : RegIdx) : Byte := s.v[r]

/-- `V[r] <- b`. -/
def State.setReg (s : State) (r : RegIdx) (b : Byte) : State := { s with v := s.v.set r b }

/-- `V[0] <- b₀, V[1] <- b₁, …` as far as the bytes go; the other registers keep their values (R185). -/
def State.setLowRegs (s : State) (bytes : List Byte) : State :=
  { s with v := Vector.ofFn fun r : RegIdx => bytes.getD r.val (s.reg r) }

/-- `V[0]` to `V[x]` in order (R184). -/
def State.lowRegs (s : State) (x : RegIdx) : List Byte := s.v.toList.take (x.val + 1)

/-- `I <- a`. -/
def State.setI (s : State) (a : Word) : State := { s with i := a }

/-- `pc <- t`: where the next step fetches (R8). -/
def State.setPc (s : State) (t : Word) : State := { s with pc := t }

/-- `pc <- PC + 2`, in 16 bits (R125, R126). -/
def State.advance (s : State) : State := s.setPc (s.pc + 2)

/-- The common skip rule: `PC + 4` when the condition holds, `PC + 2` when it does not (R148). -/
def State.skipIf (s : State) (c : Bool) : State := s.setPc (if c then s.pc + 4 else s.pc + 2)

/-- `DT <- b`. -/
def State.setDt (s : State) (b : Byte) : State := { s with dt := b }

/-- `ST <- b`. -/
def State.setSt (s : State) (b : Byte) : State := { s with st := b }

/-! ### Memory (R60 to R81) -/

/-- What an address nothing has written reads as: the contents after the first reset, the font and zeros (R38, R253).
Every byte has a value (R39). -/
def unlisted (a : Nat) : Byte := Config.font.getD a 0

/-- `M[a]`; a read has no side effect (R70). -/
def Memory.read : Memory → Nat → Byte
  | [], a => unlisted a
  | (k, b) :: m, a => if k = a then b else Memory.read m a

/-- `M[a] <- b`, kept in the canonical form. -/
def Memory.write : Memory → Nat → Byte → Memory
  | [], a, b => if b = unlisted a then [] else [(a, b)]
  | (k, c) :: m, a, b =>
    if a < k then (if b = unlisted a then (k, c) :: m else (a, b) :: (k, c) :: m)
    else if a = k then (if b = unlisted a then m else (a, b) :: m)
    else (k, c) :: Memory.write m a b

/-- The canonical form: addresses strictly rise and exist (R60), and no entry equals what an unlisted address reads
as. -/
abbrev Memory.wf (m : Memory) : Prop :=
  m.Pairwise (fun c d => c.1 < d.1) ∧ ∀ c ∈ m, c.1 < Config.memSize ∧ c.2 ≠ unlisted c.1

/-- The bytes at `base`, `base + 1`, …, `base + n - 1`, in ascending order (R67). -/
def Memory.bytesAt (m : Memory) (base : Nat) : Nat → List Byte
  | 0 => []
  | n + 1 => m.read base :: m.bytesAt (base + 1) n

/-- Writes the bytes at `base`, `base + 1`, …, in ascending order (R67). -/
def Memory.writeBytes (m : Memory) (base : Nat) : List Byte → Memory
  | [] => m
  | b :: bytes => (m.write base b).writeBytes (base + 1) bytes

/-- `M <- m`. -/
def State.setMem (s : State) (m : Memory) : State := { s with mem := m }

/-- `n` bytes from `base` lie in memory; no byte always does (R80, R191). Addresses are naturals and never wrap (R65). -/
def inRange (base n : Nat) : Bool := n == 0 || decide (base + n ≤ Config.memSize)

/-- `MEM_OOR` for an access that starts at `base`: the recorded value is the low 16 bits of the lowest out-of-range
address, `max(base, 0x1000)` (R80, R220). -/
def memFatal (base : Nat) : Fatal := ⟨.memOor, BitVec.ofNat 16 (max base Config.memSize)⟩

/-- `MemRead` of `n` bytes, checked as a whole before the first access (R63, R80). -/
def readBlock (s : State) (base n : Nat) : Except Fatal (List Byte) :=
  if inRange base n then .ok (s.mem.bytesAt base n) else .error (memFatal base)

/-- `MemWrite` of some bytes, checked as a whole before the first access (R64, R80). -/
def writeBlock (s : State) (base : Nat) (bytes : List Byte) : Except Fatal State :=
  if inRange base bytes.length then .ok (s.setMem (s.mem.writeBytes base bytes)) else .error (memFatal base)

/-- `Fetch16(PC)`: the big-endian word at `PC`, odd or even, or `PC_OOR` when its window leaves memory (R66, R68). It
reads memory afresh at every step (R74). -/
def fetch16 (s : State) : Except Fatal Word :=
  if s.pc.toNat > 0xFFE then .error ⟨.pcOor, s.pc⟩
  else .ok (wordOfBytes (s.mem.read s.pc.toNat) (s.mem.read (s.pc.toNat + 1)))

/-! ### Stack (R27, R78) -/

/-- `S <- entries; SP <- depth`. -/
def State.setStack (s : State) (entries : Vector Word 16) (depth : Fin 17) : State :=
  { s with stack := entries, sp := depth }

/-- `Push(v)`: `S[SP] <- v; SP <- SP + 1`. -/
def push (s : State) (v : Word) : Except Fatal State :=
  if h : s.sp.val < 16 then .ok (s.setStack (s.stack.set s.sp.val v) ⟨s.sp.val + 1, by omega⟩)
  else .error ⟨.stackOverflow, BitVec.ofNat 16 s.sp.val⟩

/-- `Pop()`: the popped value and the state with one entry fewer in use; the entry keeps its bits (R140). -/
def pop (s : State) : Except Fatal (Word × State) :=
  if h : 0 < s.sp.val then
    .ok (s.stack[s.sp.val - 1], s.setStack s.stack ⟨s.sp.val - 1, by omega⟩)
  else .error ⟨.stackUnderflow, BitVec.ofNat 16 s.sp.val⟩

/-! ### Framebuffer (R29, R77) -/

/-- The framebuffer with every pixel off. -/
def clearFb : Framebuffer := Vector.replicate 32 (Vector.replicate 64 false)

/-- `FB[row][col]`. -/
def State.pixel (s : State) (row : Fin 32) (col : Fin 64) : Bool := s.fb[row][col]

/-- `FB <- fb`. -/
def State.setFb (s : State) (fb : Framebuffer) : State := { s with fb := fb }

/-- The host's `fb` port: cell `py * 64 + px`, row-major (R37, R77). -/
def State.fbPort (s : State) (cell : Fin 2048) : Bool :=
  s.pixel ⟨cell.val / 64, by omega⟩ ⟨cell.val % 64, by omega⟩

/-! ### Taking a fatal condition, and leaving it (R220 to R229) -/

/-- The code of a fatal condition; 0 is "none" (R220). -/
def FatalCode.number : FatalCode → BitVec 3
  | .stackOverflow => 1
  | .stackUnderflow => 2
  | .pcOor => 3
  | .memOor => 4

/-- `raise Fatal(code, info)`: records code and info, enters `FAULTED`, "and nothing more" (R225, R227). -/
def State.raiseFatal (s : State) (f : Fatal) : State :=
  { s with runState := .faulted, faultCode := f.code.number, faultInfo := f.info }

/-- The way back to `RUNNING`: part of `reset`, the only exit from `FAULTED` (R229). -/
def State.clearFault (s : State) : State := { s with runState := .running, faultCode := 0, faultInfo := 0 }

/-- The output `fault_valid` (R37). -/
def State.faultValid (s : State) : Bool := s.runState == .faulted

/-- Ends an instruction: with the writes `k` applied, or, on a fatal condition, with `s` as it was but for the fault
record (R127, R226). -/
def orRaise {α : Type} (r : Except Fatal α) (s : State) (k : α → State) : Result :=
  match r with
  | .ok a => .next (k a)
  | .error f => .next (s.raiseFatal f)

end Sys2Proof.Machine
end

