-- ==== Sys2Proof/Machine/Flags.lean ====
section
/-! DEFINITION. Every flag the instruction set computes; a flag is the byte 0 or 1 in `V[15]` (R21). -/

namespace Sys2Proof.Machine

/-- `VF` is `V[15]` (R21). -/
def vf : RegIdx := 15

/-- A flag as the eight bits written to `VF` (R21). -/
def flagByte (c : Bool) : Byte := if c then 1 else 0

/-- add-reg: bit 8 of the 9-bit sum (R166). -/
def carryFlag (a b : Byte) : Byte := flagByte ((a.zeroExtend 9 + b.zeroExtend 9).getLsbD 8)

/-- sub: 1 exactly when `a > b`, strictly (R167); subn exchanges the operands (R168). -/
def greaterFlag (a b : Byte) : Byte := flagByte (decide (a.toNat > b.toNat))

/-- shr: the bit shifted out, bit 0 (R169). -/
def shrFlag (a : Byte) : Byte := flagByte (a.getLsbD 0)

/-- shl: the bit shifted out, bit 7 (R170). -/
def shlFlag (a : Byte) : Byte := flagByte (a.getLsbD 7)

end Sys2Proof.Machine
end

