-- ==== Sys2Proof/Machine/Operands.lean ====
section
/-! DEFINITION. Every operand form the instruction set has (R93, R186, R206). -/

namespace Sys2Proof.Machine

/-- `zext_16(nnn)`: an absolute byte address, 0x000 to 0xFFF (R93). -/
def absAddr (nnn : Addr12) : Word := nnn.zeroExtend 16

/-- `zext_16(V[r])` (R147, R181). -/
def zext16 (b : Byte) : Word := b.zeroExtend 16

/-- The one addressing mode: `ea(k) = I + k`, a natural number that never wraps (R65, R186). -/
def ea (s : State) (k : Nat) : Nat := s.i.toNat + k

/-- The key a register names: the low four bits of its value (R206; DESIGN CHOICE, log 11). -/
def keyIndex (b : Byte) : Nat := b.toNat % 16

/-- `key(k)`: bit `k` of the sampled `keys` port (R36). -/
def keyDown (keys : Word) (k : Nat) : Bool := keys.getLsbD k

/-- The least pressed key, if any (R203; DESIGN CHOICE, log 11). -/
def leastKey (keys : Word) : Option Nat := (List.range 16).find? (keyDown keys)

/-- The three decimal digits of a byte, most significant first (R183). -/
def bcdDigits (b : Byte) : List Byte :=
  [BitVec.ofNat 8 (b.toNat / 100), BitVec.ofNat 8 (b.toNat / 10 % 10), BitVec.ofNat 8 (b.toNat % 10)]

/-- The address of a glyph: all eight bits of the register times 5, in 16 bits (R182). -/
def glyphAddr (b : Byte) : Word := zext16 b * 5

end Sys2Proof.Machine
end

