-- ==== Sys2Proof/Machine/Display.lean ====
section
/-! DEFINITION. The display: clear-screen and draw, with the sprite blitter (R190 to R193). -/

namespace Sys2Proof.Machine

/-- A blit in progress: the framebuffer so far, and whether a pixel that was on has been turned off (the `f` of R191). -/
structure Blit where
  fb : Framebuffer
  hit : Bool
deriving DecidableEq, Repr

/-- The row a sprite row lands on: `(cy + r) mod 32` (R191). -/
def wrapRow (cy r : Nat) : Fin 32 := ⟨(cy + r) % 32, by omega⟩

/-- The column a sprite column lands on: `(cx + c) mod 64` (R191). -/
def wrapCol (cx c : Nat) : Fin 64 := ⟨(cx + c) % 64, by omega⟩

/-- Toggles one pixel and notes whether it was on. -/
def Blit.toggle (d : Blit) (row : Fin 32) (col : Fin 64) : Blit where
  fb := d.fb.set row (d.fb[row].set col (!d.fb[row][col]))
  hit := d.hit || d.fb[row][col]

/-- One sprite pixel: column `c` of the row byte `b` is bit `7 - c`; a 0 bit leaves its pixel alone (R191). -/
def plot (cx cy : Nat) (b : Byte) (r : Nat) (d : Blit) (c : Nat) : Blit :=
  if b.getLsbD (7 - c) then d.toggle (wrapRow cy r) (wrapCol cx c) else d

/-- One sprite row, columns 0 to 7 (R191). -/
def blitRow (cx cy : Nat) (b : Byte) (r : Nat) (d : Blit) : Blit := (List.range 8).foldl (plot cx cy b r) d

/-- The sprite rows from number `r` on, top to bottom (R191). -/
def blitRows (cx cy : Nat) : List Byte → Nat → Blit → Blit
  | [], _, d => d
  | b :: rows, r, d => blitRows cx cy rows (r + 1) (blitRow cx cy b r d)

/-- clear-screen; `VF` is not written (R190). -/
def execCls (s : State) : Result := .next (s.setFb clearFb).advance

/-- draw. The coordinates and the sprite are read before `VF` is written (R173, R191); the clearing of `VF` before the
blit cannot be observed, since its final value is always written after (DEDUCED, log 12). -/
def execDrw (x y : RegIdx) (n : Nibble) (s : State) : Result :=
  orRaise (readBlock s (ea s 0) n.toNat) s fun rows =>
    let d := blitRows (s.reg x).toNat (s.reg y).toNat rows 0 ⟨s.fb, false⟩
    ((s.setFb d.fb).setReg vf (flagByte d.hit)).advance

end Sys2Proof.Machine
end

