-- ==== Sys2Proof/Machine/Flow.lean ====
section
/-! DEFINITION. Control transfer: return, jump, call, the register and byte skips, jump-v0 (R140 to R148). -/

namespace Sys2Proof.Machine

/-- return (R140). -/
def execRet (s : State) : Result := orRaise (pop s) s fun (t, s') => s'.setPc t

/-- jump (R141). -/
def execJp (nnn : Addr12) (s : State) : Result := .next (s.setPc (absAddr nnn))

/-- call: pushes `PC + 2` (R142). -/
def execCall (nnn : Addr12) (s : State) : Result := orRaise (push s (s.pc + 2)) s fun s' => s'.setPc (absAddr nnn)

/-- skip-eq-byte (R143). -/
def execSeByte (x : RegIdx) (kk : Byte) (s : State) : Result := .next (s.skipIf (s.reg x == kk))

/-- skip-ne-byte (R144). -/
def execSneByte (x : RegIdx) (kk : Byte) (s : State) : Result := .next (s.skipIf (s.reg x != kk))

/-- skip-eq-reg (R145). -/
def execSeReg (x y : RegIdx) (s : State) : Result := .next (s.skipIf (s.reg x == s.reg y))

/-- skip-ne-reg (R146). -/
def execSneReg (x y : RegIdx) (s : State) : Result := .next (s.skipIf (s.reg x != s.reg y))

/-- jump-v0: the 16-bit sum `nnn + V[0]`, not reduced (R147). -/
def execJpV0 (nnn : Addr12) (s : State) : Result := .next (s.setPc (absAddr nnn + zext16 (s.reg 0)))

end Sys2Proof.Machine
end

