-- ==== Sys2Proof/Machine/IndexMemory.lean ====
section
/-! DEFINITION. The address register and the memory transfers (R180 to R186). The transfers leave `I` as it was. -/

namespace Sys2Proof.Machine

/-- load-I (R180). -/
def execLdI (nnn : Addr12) (s : State) : Result := .next (s.setI (absAddr nnn)).advance

/-- add-to-I: modulo 65536, no flag (R181). -/
def execAddI (x : RegIdx) (s : State) : Result := .next (s.setI (s.i + zext16 (s.reg x))).advance

/-- font-address (R182). -/
def execFontAddr (x : RegIdx) (s : State) : Result := .next (s.setI (glyphAddr (s.reg x))).advance

/-- store-BCD (R183). -/
def execStoreBcd (x : RegIdx) (s : State) : Result :=
  orRaise (writeBlock s (ea s 0) (bcdDigits (s.reg x))) s State.advance

/-- store-registers: `V[0]` to `V[x]` (R184). -/
def execStoreRegs (x : RegIdx) (s : State) : Result :=
  orRaise (writeBlock s (ea s 0) (s.lowRegs x)) s State.advance

/-- load-registers: `V[0]` to `V[x]` (R185). -/
def execLoadRegs (x : RegIdx) (s : State) : Result :=
  orRaise (readBlock s (ea s 0) (x.val + 1)) s fun bytes => (s.setLowRegs bytes).advance

end Sys2Proof.Machine
end

