-- ==== Sys2Proof/Machine/KeypadTimers.lean ====
section
/-! DEFINITION. Keypad, timer and sound instructions (R200 to R206). The keys are the levels on the `keys` port at this
step (R36). -/

namespace Sys2Proof.Machine

/-- skip-key-pressed (R200). -/
def execSkp (x : RegIdx) (s : State) : Result := .next (s.skipIf (keyDown s.keys (keyIndex (s.reg x))))

/-- skip-key-not-pressed (R201). -/
def execSknp (x : RegIdx) (s : State) : Result := .next (s.skipIf (!keyDown s.keys (keyIndex (s.reg x))))

/-- read-delay (R202). -/
def execReadDelay (x : RegIdx) (s : State) : Result := .next (s.setReg x s.dt).advance

/-- wait-key: with no key down nothing is written, `PC` included, and the next step executes it again; otherwise `V[x]`
gets the least pressed key (R203). -/
def execWaitKey (x : RegIdx) (s : State) : Result :=
  .next (match leastKey s.keys with
    | none => s
    | some k => (s.setReg x (BitVec.ofNat 8 k)).advance)

/-- set-delay (R204). -/
def execSetDelay (x : RegIdx) (s : State) : Result := .next (s.setDt (s.reg x)).advance

/-- set-sound; it sends no pulse and does not touch `TONE` (R205). -/
def execSetSound (x : RegIdx) (s : State) : Result := .next (s.setSt (s.reg x)).advance

end Sys2Proof.Machine
end

