-- ==== Sys2Proof/Machine/LoadAlu.lean ====
section
/-! DEFINITION. Register loads and the ALU (R160 to R173). Operands are read before any write, and two writes to one
register stand in the order written (R133, R173). -/

namespace Sys2Proof.Machine

/-- load-byte (R160). -/
def execLdByte (x : RegIdx) (kk : Byte) (s : State) : Result := .next (s.setReg x kk).advance

/-- add-byte: modulo 256, no flag (R161). -/
def execAddByte (x : RegIdx) (kk : Byte) (s : State) : Result := .next (s.setReg x (s.reg x + kk)).advance

/-- load-reg (R162). -/
def execLdReg (x y : RegIdx) (s : State) : Result := .next (s.setReg x (s.reg y)).advance

/-- or (R163). -/
def execOrReg (x y : RegIdx) (s : State) : Result := .next (s.setReg x (s.reg x ||| s.reg y)).advance

/-- and (R164). -/
def execAndReg (x y : RegIdx) (s : State) : Result := .next (s.setReg x (s.reg x &&& s.reg y)).advance

/-- xor (R165). -/
def execXorReg (x y : RegIdx) (s : State) : Result := .next (s.setReg x (s.reg x ^^^ s.reg y)).advance

/-- add-reg: the sum first, the carry second (R166). -/
def execAddReg (x y : RegIdx) (s : State) : Result :=
  .next ((s.setReg x (s.reg x + s.reg y)).setReg vf (carryFlag (s.reg x) (s.reg y))).advance

/-- The shape of sub, subn, shr and shl: the flag first, the result second (R167 to R170). -/
def flagThenResult (s : State) (x : RegIdx) (flag result : Byte) : State :=
  ((s.setReg vf flag).setReg x result).advance

/-- sub (R167). -/
def execSub (x y : RegIdx) (s : State) : Result :=
  .next (flagThenResult s x (greaterFlag (s.reg x) (s.reg y)) (s.reg x - s.reg y))

/-- subn (R168). -/
def execSubn (x y : RegIdx) (s : State) : Result :=
  .next (flagThenResult s x (greaterFlag (s.reg y) (s.reg x)) (s.reg y - s.reg x))

/-- shr: logical, by one, of `V[x]` itself (R169). -/
def execShr (x : RegIdx) (s : State) : Result := .next (flagThenResult s x (shrFlag (s.reg x)) (s.reg x >>> 1))

/-- shl: by one, of `V[x]` itself (R170). -/
def execShl (x : RegIdx) (s : State) : Result := .next (flagThenResult s x (shlFlag (s.reg x)) (s.reg x <<< 1))

/-- random: the byte on the `rnd` port, masked (R171). -/
def execRnd (x : RegIdx) (kk : Byte) (s : State) : Result := .next (s.setReg x (s.rnd &&& kk)).advance

end Sys2Proof.Machine
end

