-- ==== Sys2Proof/Machine/Unrecognized.lean ====
section
/-! DEFINITION. Unrecognized words: `pc <- PC + 2` and nothing else (R210, R211). -/

namespace Sys2Proof.Machine

/-- family 0, the customary `SYS nnn` (R211). -/
def execSys (_nnn : Addr12) (s : State) : Result := .next s.advance

/-- family 8 (R210). -/
def execUnrec8 (_x _y : RegIdx) (_n : Nibble) (s : State) : Result := .next s.advance

/-- family E (R210). -/
def execUnrecE (_x : RegIdx) (_kk : Byte) (s : State) : Result := .next s.advance

/-- family F (R210). -/
def execUnrecF (_x : RegIdx) (_kk : Byte) (s : State) : Result := .next s.advance

end Sys2Proof.Machine
end

