-- ==== Sys2Proof/Machine/Events.lean ====
section
/-! DEFINITION. The four host events (R120): `step`, `tick`, `reset`, `load_rom`. Each is atomic. -/

namespace Sys2Proof.Machine

/-! ### `tick` (R129, R130) -/

/-- A timer after one tick: one less, floored at 0 (R129). -/
def decTimer (t : Byte) : Byte := if t = 0 then 0 else t - 1

/-- The tick finds a tone to start: `ST > 0` while `TONE == 0` (R129). -/
def State.toneStarts (s : State) : Bool := s.st != 0 && !s.tone

/-- The tick finds a tone to stop: `ST`, just decremented, is 0 while `TONE`, perhaps just set, is 1 (R129). -/
def State.toneStops (s : State) : Bool := decTimer s.st == 0 && (s.tone || s.toneStarts)

/-- The pulses of one tick, start before stop (R37, R130). -/
def tickPulses (s : State) : List SoundPulse :=
  (if s.toneStarts then [.start] else []) ++ (if s.toneStops then [.stop] else [])

/-- `tick`, in either executor state (R129). -/
def tickEvent (s : State) : State :=
  { s with
    dt := decTimer s.dt
    st := decTimer s.st
    tone := (s.tone || s.toneStarts) && !s.toneStops
    sound := s.sound ++ tickPulses s }

/-! ### `reset` and `load_rom` (R250 to R254) -/

/-- `reset`: memory keeps every byte but the font's and the image's; no pulse is sent (R251, R254). -/
def resetEvent (s : State) : State :=
  { s.clearFault with
    v := Vector.replicate 16 0
    i := 0
    dt := 0
    st := 0
    pc := BitVec.ofNat 16 Config.entry
    sp := 0
    stack := Vector.replicate 16 0
    fb := clearFb
    mem := (s.mem.writeBytes 0 Config.font).writeBytes Config.entry s.rom
    tone := false }

/-- `load_rom(bytes)`: keeps the image and copies it into memory at once; an image over 3584 bytes is refused and
nothing changes (R252; DEDUCED, log 4). -/
def loadRomEvent (bytes : List Byte) (s : State) : State :=
  if bytes.length ≤ Config.romMax then { s with rom := bytes, mem := s.mem.writeBytes Config.entry bytes } else s

/-- A newly made core: the state of R38 but with all of memory zero, the font not yet copied (R250; DEDUCED, log 9). -/
def State.constructed : State :=
  { State.reset with mem := Memory.writeBytes [] 0 (List.replicate Config.fontSize 0) }

/-! ### `step` (R122 to R128) -/

/-- The instructions that sample the `keys` port (R36). -/
def readsKeys (i : Instr) : Bool :=
  match i with
  | .skp _ | .sknp _ | .waitKey _ => true
  | .cls | .ret | .jp _ | .call _ | .seByte _ _ | .sneByte _ _ | .seReg _ _ | .ldByte _ _ | .addByte _ _ | .ldReg _ _
  | .orReg _ _ | .andReg _ _ | .xorReg _ _ | .addReg _ _ | .sub _ _ | .shr _ | .subn _ _ | .shl _ | .sneReg _ _ | .ldI _
  | .jpV0 _ | .rnd _ _ | .drw _ _ _ | .readDelay _ | .setDelay _ | .setSound _ | .addI _ | .fontAddr _ | .storeBcd _
  | .storeRegs _ | .loadRegs _ | .sys _ | .unrec8 _ _ _ | .unrecE _ _ | .unrecF _ _ => false

/-- The instruction that samples the `rnd` port (R36). -/
def readsRnd (i : Instr) : Bool :=
  match i with
  | .rnd _ _ => true
  | .cls | .ret | .jp _ | .call _ | .seByte _ _ | .sneByte _ _ | .seReg _ _ | .ldByte _ _ | .addByte _ _ | .ldReg _ _
  | .orReg _ _ | .andReg _ _ | .xorReg _ _ | .addReg _ _ | .sub _ _ | .shr _ | .subn _ _ | .shl _ | .sneReg _ _ | .ldI _
  | .jpV0 _ | .drw _ _ _ | .skp _ | .sknp _ | .readDelay _ | .waitKey _ | .setDelay _ | .setSound _ | .addI _ | .fontAddr _
  | .storeBcd _ | .storeRegs _ | .loadRegs _ | .sys _ | .unrec8 _ _ _ | .unrecE _ _ | .unrecF _ _ => false

/-- A step of `i` samples the port its instruction reads and ignores the other (R36): an instruction that reads neither,
and so every one that can fault, leaves the ports unconsumed (R127). `samples` counts the steps that sampled one
(DESIGN CHOICE, logs 2 and 10). -/
def State.samplePorts (s : State) (i : Instr) (keys : Word) (rnd : Byte) : State :=
  { s with
    keys := if readsKeys i then keys else s.keys
    rnd := if readsRnd i then rnd else s.rnd
    samples := if readsKeys i || readsRnd i then s.samples + 1 else s.samples }

/-- `step` with the given levels on the input ports. In `FAULTED` it changes nothing (R128). In `RUNNING` it fetches,
decodes and executes (R122), sampling the port that its instruction reads (R36); a fetch out of range raises `PC_OOR`, and
then no port is sampled (R127). -/
def stepEvent (keys : Word) (rnd : Byte) (s : State) : Result :=
  match s.runState with
  | .faulted => .next s
  | .running =>
    match fetch16 s with
    | .error f => .next (s.raiseFatal f)
    | .ok w => exec (decodeWord w) (s.samplePorts (decodeWord w) keys rnd)

/-! ### The host's schedule -/

/-- One event of the host. -/
def hostEvent (e : HostEvent) (s : State) : Result :=
  match e with
  | .step keys rnd => stepEvent keys rnd s
  | .tick => .next (tickEvent s)
  | .reset => .next (resetEvent s)
  | .loadRom bytes => .next (loadRomEvent bytes s)

/-- The event the host raises next, and the schedule after it: the head of the schedule, or, when it is empty, a `step`
with free inputs on the ports (DESIGN CHOICE, logs 2 and 3). -/
def nextEvent (s : State) : HostEvent × List HostEvent :=
  match s.schedule with
  | [] => (.step (Config.keysInput s.samples) (Config.rndInput s.samples), [])
  | e :: rest => (e, rest)

/-- The schedule becomes `rest`. -/
def State.setSchedule (s : State) (rest : List HostEvent) : State := { s with schedule := rest }

/-- The host raises its next event. -/
def runNextEvent (s : State) : Result := hostEvent (nextEvent s).1 (s.setSchedule (nextEvent s).2)

/-! ### Placing an instruction where the next step fetches it -/

/-- `s` with the bytes stored where its next step fetches, in a state whose next event is a step that fetches: no
scripted event before it, no fault recorded, `PC` moved to `ENTRY` if its window is outside memory (DESIGN CHOICE, log 6). -/
def placeBytes (s : State) (bytes : List Byte) : State :=
  let pc := if s.pc.toNat ≤ 0xFFE then s.pc else BitVec.ofNat 16 Config.entry
  let s' := match s.runState with
    | .running => s
    | .faulted => s.clearFault
  { s' with pc := pc, mem := s.mem.writeBytes pc.toNat bytes, schedule := [] }

end Sys2Proof.Machine
end

