-- ==== Sys2Proof/Machine/Step.lean ====
section
/-! DEFINITION. One transition of the machine: the host raises its next event (R120). -/

namespace Sys2Proof.Machine

/-- The host's next event; with an empty schedule, one `step` of the core (R122, DESIGN CHOICE, log 3). -/
def step (s : State) : Host.Outcome State Fault Refusal := runNextEvent s

/-- `s` with the instruction of the opcode table's bits `w` stored where `step` fetches its next instruction, so that
the very next step runs it (DESIGN CHOICE, log 6). -/
def State.withFetchWord (s : State) (nbits w : Nat) : State := placeBytes s (tableBytes nbits w)

end Sys2Proof.Machine
end

