-- ==== Sys2Proof/Safety.lean ====
section
/-! DEFINITION. The terms claims are stated in: a safe state, the invariant, which instruction raises which fatal
condition (R220), and what "unchanged" means for each part of the state. -/

namespace Sys2Proof.Machine

/-! ### Safe states and the invariant -/

/-- No fault is recorded: the executor is `RUNNING` (R31, R228). -/
abbrev State.Safe (s : State) : Prop := s.runState = .running

/-- The fault record says what it should (R31, R220): nothing in `RUNNING`; in `FAULTED` the code and the value of one
of the four conditions (the spec's decision D11), which the stopped core still meets: depth 16, depth 0, a `PC` outside
memory, an `I` from which some transfer leaves memory. -/
def FaultRecordOk (s : State) : Prop :=
  match s.runState with
  | .running => s.faultCode = 0 ∧ s.faultInfo = 0
  | .faulted =>
    (s.faultCode = 1 ∧ s.faultInfo = 16 ∧ s.sp = 16) ∨
    (s.faultCode = 2 ∧ s.faultInfo = 0 ∧ s.sp = 0) ∨
    (s.faultCode = 3 ∧ s.faultInfo = s.pc ∧ s.pc.toNat > 0xFFE) ∨
    (s.faultCode = 4 ∧ s.faultInfo.toNat = max s.i.toNat 0x1000 ∧ 0xFFF < s.i.toNat + 15)

/-- What every event of the host keeps. -/
structure Inv (s : State) : Prop where
  /-- memory is in its canonical form (DEDUCED, log 5) -/
  memory : s.mem.wf
  /-- `ROM_LEN <= 3584` (R32) -/
  image : s.rom.length ≤ Config.romMax
  /-- "PC never exceeds 0x10FE" (R24) -/
  pcBound : s.pc.toNat ≤ 0x10FE
  /-- an entry in use is a return address, at most 0x1000 (R24, R27) -/
  returns : ∀ k : Fin 16, k.val < s.sp.val → s.stack[k].toNat ≤ 0x1000
  /-- the fault record agrees with the executor's state (R31, R220) -/
  record : FaultRecordOk s

/-! ### Who raises what (R220) -/

/-- The condition and the recorded value of the table of R220, for an instruction executed in a state. -/
def fatalOf (i : Instr) (s : State) : Option Fatal :=
  match i with
  | .call _ => if s.sp.val = 16 then some ⟨.stackOverflow, 16⟩ else none
  | .ret => if s.sp.val = 0 then some ⟨.stackUnderflow, 0⟩ else none
  | .drw _ _ n => if 0 < n.toNat ∧ s.i.toNat + n.toNat - 1 > 0xFFF then some (memFatal s.i.toNat) else none
  | .storeBcd _ => if s.i.toNat + 2 > 0xFFF then some (memFatal s.i.toNat) else none
  | .storeRegs x | .loadRegs x => if s.i.toNat + x.val > 0xFFF then some (memFatal s.i.toNat) else none
  | .cls | .jp _ | .seByte _ _ | .sneByte _ _ | .seReg _ _ | .ldByte _ _ | .addByte _ _ | .ldReg _ _ | .orReg _ _
  | .andReg _ _ | .xorReg _ _ | .addReg _ _ | .sub _ _ | .shr _ | .subn _ _ | .shl _ | .sneReg _ _ | .ldI _ | .jpV0 _
  | .rnd _ _ | .skp _ | .sknp _ | .readDelay _ | .waitKey _ | .setDelay _ | .setSound _ | .addI _ | .fontAddr _
  | .sys _ | .unrec8 _ _ _ | .unrecE _ _ | .unrecF _ _ => none

/-! ### Encodings -/

/-- Every word with these bits decodes to that instruction (R101). -/
def Encodes (mask mat : Word) (f : Word → Instr) : Prop := ∀ w : Word, selects mask mat w → decodeWord w = f w

/-! ### Frames: what stays as it was -/

/-- Every register but those listed. -/
def SameRegsExcept (rs : List RegIdx) (s t : State) : Prop := ∀ r, r ∉ rs → t.reg r = s.reg r

/-- `DT` and `ST`. -/
def SameTimers (s t : State) : Prop := t.dt = s.dt ∧ t.st = s.st

/-- The depth and every entry. -/
def SameStack (s t : State) : Prop := t.sp = s.sp ∧ ∀ k : Fin 16, t.stack[k] = s.stack[k]

/-- Every byte of memory. -/
def SameMemory (s t : State) : Prop := ∀ a, t.mem.read a = s.mem.read a

/-- Every byte of memory but the `n` bytes from `base`. -/
def SameMemoryOutside (base n : Nat) (s t : State) : Prop :=
  ∀ a, (a < base ∨ base + n ≤ a) → t.mem.read a = s.mem.read a

/-- Every pixel. -/
def SamePixels (s t : State) : Prop := ∀ row col, t.pixel row col = s.pixel row col

/-- What no instruction writes unless it faults: `TONE`, the fault record, the kept image, and the host's side. -/
def SameHidden (s t : State) : Prop :=
  t.tone = s.tone ∧ t.runState = s.runState ∧ t.faultCode = s.faultCode ∧ t.faultInfo = s.faultInfo ∧ t.rom = s.rom ∧
  t.keys = s.keys ∧ t.rnd = s.rnd ∧ t.sound = s.sound ∧ t.schedule = s.schedule ∧ t.samples = s.samples

/-- Everything but the listed registers and `PC`. -/
def RegisterFrame (rs : List RegIdx) (s t : State) : Prop :=
  SameRegsExcept rs s t ∧ t.i = s.i ∧ SameTimers s t ∧ SameStack s t ∧ SameMemory s t ∧ SamePixels s t ∧ SameHidden s t

/-- The sprite of a draw covers a pixel: row `r` and column `c` of it, with bit `7 - c` of `M[I + r]` set, land there
(R192). -/
def SpriteCovers (s : State) (x y : RegIdx) (n : Nibble) (row : Fin 32) (col : Fin 64) : Prop :=
  ∃ r < n.toNat, ∃ c < 8, (s.mem.read (s.i.toNat + r)).getLsbD (7 - c) = true ∧
    row.val = ((s.reg y).toNat + r) % 32 ∧ col.val = ((s.reg x).toNat + c) % 64

end Sys2Proof.Machine
end

