-- ==== Sys2Proof/Certificates/Slice0/Obligations.lean ====
section
/-! DEFINITION. The statements for the provers. Each is about the machine; none is about a program. The masks and matches
of the `Encodes` clauses are those of each rule's own "Encoding:" line; the spec marks the patterns of 30 of the 34
instructions as general knowledge (GK1). -/

open Sys2Proof Sys2Proof.Machine

/-! ### Reset, loading a program, the timers -/

/-- The state after the first reset with no image (R38, R253). `FONT` is the model's parameter (log 1); that reset
clears `TONE`, the fault record and the stack entries is the spec's decision D20, and the zeros elsewhere are D21. -/
def Obligations.ResetStateHoldsResetValues : Prop :=
  (∀ r, State.reset.reg r = 0) ∧ State.reset.i = 0 ∧ State.reset.pc = 0x200 ∧
  State.reset.dt = 0 ∧ State.reset.st = 0 ∧ State.reset.sp = 0 ∧ (∀ k : Fin 16, State.reset.stack[k] = 0) ∧
  (∀ row col, State.reset.pixel row col = false) ∧
  (∀ a < 80, Config.font[a]? = some (State.reset.mem.read a)) ∧ (∀ a, 80 ≤ a → State.reset.mem.read a = 0) ∧
  State.reset.tone = false ∧ State.reset.runState = .running ∧ State.reset.faultCode = 0 ∧
  State.reset.faultInfo = 0 ∧ State.reset.rom = []

/-- A newly made core has all of memory zero, and the first reset makes it the state of R38 (R250; the spec's decision
D21). -/
def Obligations.FirstResetOfAConstructedCore : Prop :=
  (∀ a, State.constructed.mem.read a = 0) ∧ resetEvent State.constructed = State.reset

/-- `reset` from any state (R251, R254): registers, timers, stack and framebuffer cleared, the font and the kept image
rewritten, every other byte kept, no pulse sent. The clearing of `TONE` and of the fault record is the spec's decision
D20, the kept bytes are D21. -/
def Obligations.ResetReinitialisesEverythingButMemory : Prop :=
  ∀ s : State, s.mem.wf → s.rom.length ≤ 3584 →
    (∀ r, (resetEvent s).reg r = 0) ∧ (resetEvent s).i = 0 ∧ (resetEvent s).pc = 0x200 ∧
    (resetEvent s).dt = 0 ∧ (resetEvent s).st = 0 ∧ (resetEvent s).sp = 0 ∧
    (∀ k : Fin 16, (resetEvent s).stack[k] = 0) ∧ (∀ row col, (resetEvent s).pixel row col = false) ∧
    (∀ a < 80, Config.font[a]? = some ((resetEvent s).mem.read a)) ∧
    (∀ k < s.rom.length, s.rom[k]? = some ((resetEvent s).mem.read (0x200 + k))) ∧
    (∀ a, 80 ≤ a → (a < 0x200 ∨ 0x200 + s.rom.length ≤ a) → (resetEvent s).mem.read a = s.mem.read a) ∧
    (resetEvent s).tone = false ∧ (resetEvent s).runState = .running ∧ (resetEvent s).faultCode = 0 ∧
    (resetEvent s).faultInfo = 0 ∧ (resetEvent s).rom = s.rom ∧ (resetEvent s).sound = s.sound

/-- `load_rom` (R252; the spec's decision D22): an image of at most 3584 bytes is kept and copied to 0x200 at once,
nothing else changes, a fault included; a longer one is refused and nothing changes. -/
def Obligations.LoadRomKeepsAndCopiesTheImage : Prop :=
  ∀ (s : State) (bytes : List Byte), s.mem.wf →
    (bytes.length ≤ 3584 →
      (loadRomEvent bytes s).rom = bytes ∧
      (∀ k < bytes.length, bytes[k]? = some ((loadRomEvent bytes s).mem.read (0x200 + k))) ∧
      SameMemoryOutside 0x200 bytes.length s (loadRomEvent bytes s) ∧
      loadRomEvent bytes s = { s with rom := bytes, mem := (loadRomEvent bytes s).mem }) ∧
    (3584 < bytes.length → loadRomEvent bytes s = s)

/-- `tick` in either executor state (R129, R130; the tone bit is the spec's decision D19): each timer falls by one,
floored at 0; the six cases of sound timer and tone send their pulses, start before stop; nothing else changes. -/
def Obligations.TickMovesTimersAndTone : Prop :=
  ∀ s : State,
    (tickEvent s).dt.toNat = s.dt.toNat - 1 ∧ (tickEvent s).st.toNat = s.st.toNat - 1 ∧
    (s.st = 0 → s.tone = false → (tickEvent s).tone = false ∧ (tickEvent s).sound = s.sound) ∧
    (s.st = 0 → s.tone = true → (tickEvent s).tone = false ∧ (tickEvent s).sound = s.sound ++ [.stop]) ∧
    (s.st = 1 → s.tone = false → (tickEvent s).tone = false ∧ (tickEvent s).sound = s.sound ++ [.start, .stop]) ∧
    (s.st = 1 → s.tone = true → (tickEvent s).tone = false ∧ (tickEvent s).sound = s.sound ++ [.stop]) ∧
    (1 < s.st.toNat → s.tone = false → (tickEvent s).tone = true ∧ (tickEvent s).sound = s.sound ++ [.start]) ∧
    (1 < s.st.toNat → s.tone = true → (tickEvent s).tone = true ∧ (tickEvent s).sound = s.sound) ∧
    tickEvent s = { s with dt := (tickEvent s).dt, st := (tickEvent s).st, tone := (tickEvent s).tone,
                           sound := (tickEvent s).sound }

/-- "after every `tick`, `TONE == 1` exactly when `ST > 0`", and a tick that leaves `TONE` at 0 is followed by one that
sends no pulse (R130; the `TONE` bit is the spec's decision D19, the list of pulses the model's, log 2). -/
def Obligations.ToneFollowsSoundTimerAfterTick : Prop :=
  ∀ s : State,
    ((tickEvent s).tone = true ↔ 0 < (tickEvent s).st.toNat) ∧
    ((tickEvent s).tone = false → (tickEvent (tickEvent s)).sound = (tickEvent s).sound)

/-! ### A step -/

/-- A running step executes what it decodes at `PC` (R122, R123): with an empty schedule on free port levels, with a
scripted step on the scripted ones, of which it takes what its instruction samples (R36). The schedule and the ports' fields are the model's (logs 2 and 3). -/
def Obligations.StepRunsDecodedInstruction : Prop :=
  ∀ (s : State) (i : Instr), s.runState = .running → s.pc.toNat ≤ 0xFFE → i.wf = true →
    decode [s.mem.read s.pc.toNat, s.mem.read (s.pc.toNat + 1)] = .ok (i, []) →
    (s.schedule = [] →
      step s = exec i (s.samplePorts i (Config.keysInput s.samples) (Config.rndInput s.samples))) ∧
    (∀ keys rnd rest, s.schedule = .step keys rnd :: rest →
      step s = exec i ((s.setSchedule rest).samplePorts i keys rnd))

/-- A fetch with `PC > 0xFFE` raises `PC_OOR` with `PC` as the recorded value, and samples no port; otherwise the word
is big-endian at any `PC`, odd or even (R66, R68, R223; that fetch alone tests `PC` is the spec's decision D7). -/
def Obligations.FetchReadsBigEndianOrFaults : Prop :=
  ∀ s : State,
    (s.pc.toNat ≤ 0xFFE → ∃ w, fetch16 s = .ok w ∧
      w.toNat = 256 * (s.mem.read s.pc.toNat).toNat + (s.mem.read (s.pc.toNat + 1)).toNat) ∧
    (0xFFE < s.pc.toNat → s.runState = .running → ∀ keys rnd,
      stepEvent keys rnd s = .next { s with runState := .faulted, faultCode := 3, faultInfo := s.pc })

/-- A step in `FAULTED` changes nothing and shows the same fault (R128; the spec's decision D10). -/
def Obligations.FaultedStepChangesNothing : Prop :=
  ∀ s : State, s.runState = .faulted →
    (∀ keys rnd, stepEvent keys rnd s = .next s) ∧ (s.schedule = [] → step s = .next s)

/-- The fault outlasts every step, tick and load; reset alone clears it (R228, R229; the spec's decisions D10 and
D20). -/
def Obligations.OnlyResetLeavesFaulted : Prop :=
  (∀ (e : HostEvent) (s t : State), s.runState = .faulted → e ≠ .reset → hostEvent e s = .next t →
    t.runState = .faulted ∧ t.faultCode = s.faultCode ∧ t.faultInfo = s.faultInfo ∧ t.faultValid = true) ∧
  (∀ s : State, ∃ t, hostEvent .reset s = .next t ∧ t.runState = .running ∧ t.faultCode = 0 ∧ t.faultInfo = 0 ∧
    t.faultValid = false)

/-- The host's events happen one at a time, in the order of the schedule (R120; the schedule is the model's, log 3). -/
def Obligations.ScheduledEventsHappenInOrder : Prop :=
  ∀ (s : State) (rest : List HostEvent),
    (s.schedule = .tick :: rest → step s = .next (tickEvent (s.setSchedule rest))) ∧
    (s.schedule = .reset :: rest → step s = .next (resetEvent (s.setSchedule rest))) ∧
    (∀ bytes, s.schedule = .loadRom bytes :: rest → step s = .next (loadRomEvent bytes (s.setSchedule rest))) ∧
    (∀ keys rnd, s.schedule = .step keys rnd :: rest → step s = stepEvent keys rnd (s.setSchedule rest))

/-! ### Fatal conditions -/

/-- Taking a fatal condition: code and value recorded, `FAULTED` entered, `fault_valid` shown, "and nothing more"
(R227). -/
def Obligations.RaiseFatalDoesExactlyThis : Prop :=
  ∀ (s : State) (f : Fatal),
    (s.raiseFatal f).faultCode = f.code.number ∧ (s.raiseFatal f).faultInfo = f.info ∧
    (s.raiseFatal f).runState = .faulted ∧ (s.raiseFatal f).faultValid = true ∧
    SameRegsExcept [] s (s.raiseFatal f) ∧ (s.raiseFatal f).i = s.i ∧ (s.raiseFatal f).pc = s.pc ∧
    SameTimers s (s.raiseFatal f) ∧ SameStack s (s.raiseFatal f) ∧ SameMemory s (s.raiseFatal f) ∧
    SamePixels s (s.raiseFatal f) ∧ (s.raiseFatal f).tone = s.tone ∧ (s.raiseFatal f).rom = s.rom ∧
    (s.raiseFatal f).keys = s.keys ∧ (s.raiseFatal f).rnd = s.rnd ∧ (s.raiseFatal f).sound = s.sound ∧
    (s.raiseFatal f).schedule = s.schedule ∧ (s.raiseFatal f).samples = s.samples

/-- `STACK_OVERFLOW` (R221): a call at depth 16 raises it and leaves stack and `PC` unchanged, a call below depth 16
succeeds, and no other instruction raises it. -/
def Obligations.StackOverflowIsRaisedByCallAtDepthSixteen : Prop :=
  (∀ (nnn : Addr12) (s : State), s.sp = 16 → ∃ t, exec (.call nnn) s = .next t ∧ t.runState = .faulted ∧
    t.faultCode = FatalCode.stackOverflow.number ∧ SameStack s t ∧ t.pc = s.pc) ∧
  (∀ (nnn : Addr12) (s : State), s.sp.val < 16 → ∃ t, exec (.call nnn) s = .next t ∧ t.runState = s.runState ∧
    t.sp.val = s.sp.val + 1) ∧
  (∀ (i : Instr) (s t : State), s.runState = .running → exec i s = .next t → t.runState = .faulted →
    t.faultCode = FatalCode.stackOverflow.number → ∃ nnn, i = .call nnn)

/-- `STACK_UNDERFLOW` (R222): a return at depth 0 raises it, shown to the host by `fault_valid`, and no other
instruction raises it. -/
def Obligations.StackUnderflowIsRaisedByReturnAtDepthZero : Prop :=
  (∀ s : State, s.sp = 0 → ∃ t, exec .ret s = .next t ∧ t.runState = .faulted ∧
    t.faultCode = FatalCode.stackUnderflow.number ∧ t.faultValid = true ∧ SameStack s t ∧ t.pc = s.pc) ∧
  (∀ (i : Instr) (s t : State), s.runState = .running → exec i s = .next t → t.runState = .faulted →
    t.faultCode = FatalCode.stackUnderflow.number → i = .ret)

/-- The table of R220 is complete and exact: an instruction that meets its condition takes it, with nothing else
changed, and every other one runs and records no fault. The recorded values and the all-or-nothing effect are the
spec's decisions D9 and D11. -/
def Obligations.FatalConditionsAreExactlyTheTable : Prop :=
  ∀ (i : Instr) (s : State),
    (∀ f, fatalOf i s = some f → exec i s = .next (s.raiseFatal f)) ∧
    (fatalOf i s = none → ∃ t, exec i s = .next t ∧ t.runState = s.runState ∧ t.faultCode = s.faultCode ∧
      t.faultInfo = s.faultInfo)

/-- Fatal conditions are precise (R127, R226; the spec's decision D9): a step that faults changes nothing but the fault
record, and consumes no port. -/
def Obligations.FaultsArePrecise : Prop :=
  ∀ (keys : Word) (rnd : Byte) (s t : State), s.runState = .running → stepEvent keys rnd s = .next t →
    t.runState = .faulted →
    t = { s with runState := .faulted, faultCode := t.faultCode, faultInfo := t.faultInfo }

/-- Nothing stops the machine (R132, R233): every event of every state answers a next state, never a fault or a refusal
of the model (log 4). -/
def Obligations.EveryEventAnswersANextState : Prop := ∀ s : State, ∃ t, step s = .next t

/-! ### The invariant -/

/-- Every event keeps the invariant: canonical memory (log 5), the image bound (R32), `PC <= 0x10FE` and stacked
addresses at most 0x1000 (R24), and a fault record that agrees with the table of R220, whose codes and values are the
spec's decision D11. For code 4 that is the value `max(I, 0x1000)` and an `I` from which some transfer leaves memory. -/
def Obligations.EveryEventKeepsTheInvariant : Prop := ∀ s t : State, Inv s → step s = .next t → Inv t

/-- The state after reset meets the invariant. -/
def Obligations.ResetMeetsTheInvariant : Prop := Inv State.reset

/-! ### Encoding -/

/-- Decoding the encoding of a well-formed instruction gives it back, for every operand (R101, R102; ignored fields are
no operands, log 8). -/
def Obligations.DecodeOfEncode : Prop := ∀ i : Instr, i.wf = true → decodeWord (encode i) = i

/-- Decoding is total and follows the map (R101, R107): each word selects the row of the instruction it decodes to, and
a word that selects an instruction row decodes to that row. The patterns are the spec's general knowledge (GK1); which
bits select a row is its decisions D13 (families 5 and 9) and D14 (the whole word or byte in 0, E and F); the four rows of unrecognized words are the opcode table's (log 7). -/
def Obligations.DecodingFollowsTheOpcodeMap : Prop :=
  (∀ w, selects (rowOf (decodeWord w)).1 (rowOf (decodeWord w)).2 w ∧ (decodeWord w).wf = true) ∧
  (∀ (w : Word) (i : Instr), i.recognized = true → selects (rowOf i).1 (rowOf i).2 w →
    rowOf (decodeWord w) = rowOf i)

/-- The fields that are ignored select nothing: the low nibble of families 5 and 9 (R99; the spec's decision D13) and
`y` of the shifts (R100). -/
def Obligations.IgnoredFieldsDoNotMatter : Prop :=
  ∀ w w' : Word, fieldOp w = fieldOp w' → fieldX w = fieldX w' →
    (fieldOp w = 5 ∨ fieldOp w = 9 → fieldY w = fieldY w' → decodeWord w = decodeWord w') ∧
    (fieldOp w = 8 → fieldN w = fieldN w' → fieldN w = 6 ∨ fieldN w = 0xE → decodeWord w = decodeWord w')

/-- Words written out from the patterns of R101 and R102, at least one of each of the sixteen families. -/
def Obligations.SampleWordsDecode : Prop :=
  decodeWord 0x00E0 = .cls ∧ decodeWord 0x00EE = .ret ∧ decodeWord 0x0123 = .sys 0x123 ∧
  decodeWord 0x1ABC = .jp 0xABC ∧ decodeWord 0x2204 = .call 0x204 ∧ decodeWord 0x3142 = .seByte 1 0x42 ∧
  decodeWord 0x4A05 = .sneByte 10 0x05 ∧ decodeWord 0x5120 = .seReg 1 2 ∧ decodeWord 0x600A = .ldByte 0 0x0A ∧
  decodeWord 0x7380 = .addByte 3 0x80 ∧ decodeWord 0x8014 = .addReg 0 1 ∧ decodeWord 0x9120 = .sneReg 1 2 ∧
  decodeWord 0xA300 = .ldI 0x300 ∧ decodeWord 0xB2FF = .jpV0 0x2FF ∧ decodeWord 0xC30F = .rnd 3 0x0F ∧
  decodeWord 0xD015 = .drw 0 1 5 ∧ decodeWord 0xE29E = .skp 2 ∧ decodeWord 0xF155 = .storeRegs 1

/-! ### Register loads and the ALU -/

/-- load-byte (R160): `V[x] = kk`, `VF` included when `x` is 15. -/
def Obligations.LoadByteSetsRegister : Prop :=
  Encodes 0xF000 0x6000 (fun w => .ldByte (fieldX w) (fieldKk w)) ∧
  ∀ (x : RegIdx) (kk : Byte) (s : State), ∃ t, exec (.ldByte x kk) s = .next t ∧
    t.reg x = kk ∧ t.pc = s.pc + 2 ∧ RegisterFrame [x] s t

/-- add-byte (R161): the sum modulo 256, and `VF` keeps its value (unless it is `V[x]`). -/
def Obligations.AddByteWrapsAndSetsNoFlag : Prop :=
  Encodes 0xF000 0x7000 (fun w => .addByte (fieldX w) (fieldKk w)) ∧
  ∀ (x : RegIdx) (kk : Byte) (s : State), ∃ t, exec (.addByte x kk) s = .next t ∧
    (t.reg x).toNat = ((s.reg x).toNat + kk.toNat) % 256 ∧ t.pc = s.pc + 2 ∧ RegisterFrame [x] s t

/-- load-reg (R162). -/
def Obligations.LoadRegCopies : Prop :=
  Encodes 0xF00F 0x8000 (fun w => .ldReg (fieldX w) (fieldY w)) ∧
  ∀ (x y : RegIdx) (s : State), ∃ t, exec (.ldReg x y) s = .next t ∧
    t.reg x = s.reg y ∧ t.pc = s.pc + 2 ∧ RegisterFrame [x] s t

/-- or, and, xor (R163, R164, R165): bitwise, with no flag. -/
def Obligations.LogicIsBitwiseAndSetsNoFlag : Prop :=
  Encodes 0xF00F 0x8001 (fun w => .orReg (fieldX w) (fieldY w)) ∧
  Encodes 0xF00F 0x8002 (fun w => .andReg (fieldX w) (fieldY w)) ∧
  Encodes 0xF00F 0x8003 (fun w => .xorReg (fieldX w) (fieldY w)) ∧
  ∀ (x y : RegIdx) (s : State),
    (∃ t, exec (.orReg x y) s = .next t ∧
      (∀ k < 8, (t.reg x).getLsbD k = ((s.reg x).getLsbD k || (s.reg y).getLsbD k)) ∧
      t.pc = s.pc + 2 ∧ RegisterFrame [x] s t) ∧
    (∃ t, exec (.andReg x y) s = .next t ∧
      (∀ k < 8, (t.reg x).getLsbD k = ((s.reg x).getLsbD k && (s.reg y).getLsbD k)) ∧
      t.pc = s.pc + 2 ∧ RegisterFrame [x] s t) ∧
    (∃ t, exec (.xorReg x y) s = .next t ∧
      (∀ k < 8, (t.reg x).getLsbD k = ((s.reg x).getLsbD k ^^ (s.reg y).getLsbD k)) ∧
      t.pc = s.pc + 2 ∧ RegisterFrame [x] s t)

/-- add-reg (R166). `VF` is 1 exactly when the sum passes 255; with `x` = 15 the flag overwrites the sum (R173; the
spec's decision D12). -/
def Obligations.AddRegSetsSumAndCarry : Prop :=
  Encodes 0xF00F 0x8004 (fun w => .addReg (fieldX w) (fieldY w)) ∧
  ∀ (x y : RegIdx) (s : State), ∃ t, exec (.addReg x y) s = .next t ∧
    (x ≠ 15 → (t.reg x).toNat = ((s.reg x).toNat + (s.reg y).toNat) % 256) ∧
    t.reg 15 = (if 255 < (s.reg x).toNat + (s.reg y).toNat then 1 else 0) ∧
    t.pc = s.pc + 2 ∧ RegisterFrame [x, 15] s t

/-- sub and subn (R167, R168). The flag is strict; with `x` = 15 the difference overwrites the flag (R173; the spec's
decision D12). -/
def Obligations.SubtractSetsDifferenceAndStrictFlag : Prop :=
  Encodes 0xF00F 0x8005 (fun w => .sub (fieldX w) (fieldY w)) ∧
  Encodes 0xF00F 0x8007 (fun w => .subn (fieldX w) (fieldY w)) ∧
  ∀ (x y : RegIdx) (s : State),
    (∃ t, exec (.sub x y) s = .next t ∧
      (t.reg x).toNat = ((s.reg x).toNat + 256 - (s.reg y).toNat) % 256 ∧
      (x ≠ 15 → t.reg 15 = (if (s.reg y).toNat < (s.reg x).toNat then 1 else 0)) ∧
      t.pc = s.pc + 2 ∧ RegisterFrame [x, 15] s t) ∧
    (∃ t, exec (.subn x y) s = .next t ∧
      (t.reg x).toNat = ((s.reg y).toNat + 256 - (s.reg x).toNat) % 256 ∧
      (x ≠ 15 → t.reg 15 = (if (s.reg x).toNat < (s.reg y).toNat then 1 else 0)) ∧
      t.pc = s.pc + 2 ∧ RegisterFrame [x, 15] s t)

/-- shr and shl (R169, R170): by one, of `V[x]` itself, with the bit shifted out in `VF`; with `x` = 15 the result
overwrites the flag (R173; the spec's decision D12). -/
def Obligations.ShiftsMoveOneBitIntoTheFlag : Prop :=
  Encodes 0xF00F 0x8006 (fun w => .shr (fieldX w)) ∧ Encodes 0xF00F 0x800E (fun w => .shl (fieldX w)) ∧
  ∀ (x : RegIdx) (s : State),
    (∃ t, exec (.shr x) s = .next t ∧ (t.reg x).toNat = (s.reg x).toNat / 2 ∧
      (x ≠ 15 → (t.reg 15).toNat = (s.reg x).toNat % 2) ∧ t.pc = s.pc + 2 ∧ RegisterFrame [x, 15] s t) ∧
    (∃ t, exec (.shl x) s = .next t ∧ (t.reg x).toNat = (s.reg x).toNat * 2 % 256 ∧
      (x ≠ 15 → (t.reg 15).toNat = (s.reg x).toNat / 128) ∧ t.pc = s.pc + 2 ∧ RegisterFrame [x, 15] s t)

/-- random (R171): for every byte on the `rnd` port (a free draw, the spec's decision D18), `V[x]` is that byte masked
with `kk`. -/
def Obligations.RandomMasksTheDrawnByte : Prop :=
  Encodes 0xF000 0xC000 (fun w => .rnd (fieldX w) (fieldKk w)) ∧
  ∀ (x : RegIdx) (kk : Byte) (s : State), ∃ t, exec (.rnd x kk) s = .next t ∧
    (∀ k < 8, (t.reg x).getLsbD k = (s.rnd.getLsbD k && kk.getLsbD k)) ∧ t.pc = s.pc + 2 ∧ RegisterFrame [x] s t

/-! ### Control transfer -/

/-- jump (R141): to the absolute address, with nothing else changed. -/
def Obligations.JumpSetsPc : Prop :=
  Encodes 0xF000 0x1000 (fun w => .jp (fieldNnn w)) ∧
  ∀ (nnn : Addr12) (s : State), ∃ t, exec (.jp nnn) s = .next t ∧ t.pc.toNat = nnn.toNat ∧ RegisterFrame [] s t

/-- jump-v0 (R147): `nnn + V[0]`, not reduced modulo 4096. -/
def Obligations.JumpV0AddsRegisterZero : Prop :=
  Encodes 0xF000 0xB000 (fun w => .jpV0 (fieldNnn w)) ∧
  ∀ (nnn : Addr12) (s : State), ∃ t, exec (.jpV0 nnn) s = .next t ∧
    t.pc.toNat = nnn.toNat + (s.reg 0).toNat ∧ RegisterFrame [] s t

/-- call (R142): below depth 16 it pushes the address after itself (the spec's decision D5) and jumps; at depth 16 it
faults. -/
def Obligations.CallPushesReturnAddress : Prop :=
  Encodes 0xF000 0x2000 (fun w => .call (fieldNnn w)) ∧
  ∀ (nnn : Addr12) (s : State),
    (s.sp.val < 16 → ∃ t, exec (.call nnn) s = .next t ∧ t.pc.toNat = nnn.toNat ∧ t.sp.val = s.sp.val + 1 ∧
      (∀ k : Fin 16, t.stack[k] = if k.val = s.sp.val then s.pc + 2 else s.stack[k]) ∧
      SameRegsExcept [] s t ∧ t.i = s.i ∧ SameTimers s t ∧ SameMemory s t ∧ SamePixels s t ∧ SameHidden s t) ∧
    (s.sp = 16 → exec (.call nnn) s = .next { s with runState := .faulted, faultCode := 1, faultInfo := 16 })

/-- return (R140): above depth 0 it pops the newest entry into `PC` and leaves the entry's bits (the spec's decision
D26); at depth 0 it faults. -/
def Obligations.ReturnPopsIntoPc : Prop :=
  Encodes 0xFFFF 0x00EE (fun _ => .ret) ∧
  ∀ s : State,
    (0 < s.sp.val → ∃ t, exec .ret s = .next t ∧ t.sp.val + 1 = s.sp.val ∧
      (∀ k : Fin 16, k.val + 1 = s.sp.val → t.pc = s.stack[k]) ∧ (∀ k : Fin 16, t.stack[k] = s.stack[k]) ∧
      SameRegsExcept [] s t ∧ t.i = s.i ∧ SameTimers s t ∧ SameMemory s t ∧ SamePixels s t ∧ SameHidden s t) ∧
    (s.sp = 0 → exec .ret s = .next { s with runState := .faulted, faultCode := 2, faultInfo := 0 })

/-- "`call` then `return` restores PC to the address immediately following the original call instruction, and leaves the
stack depth unchanged" (R140, R142). -/
def Obligations.CallThenReturnComesBack : Prop :=
  ∀ (nnn : Addr12) (s : State), s.sp.val < 16 → ∃ t u, exec (.call nnn) s = .next t ∧ exec .ret t = .next u ∧
    u.pc = s.pc + 2 ∧ u.sp = s.sp

/-- skip-eq-byte, skip-ne-byte, skip-eq-reg, skip-ne-reg (R143 to R146): `PC + 4` when the condition holds, else
`PC + 2` (the spec's decision D4); nothing else changes. -/
def Obligations.RegisterSkipsChooseNextPc : Prop :=
  Encodes 0xF000 0x3000 (fun w => .seByte (fieldX w) (fieldKk w)) ∧
  Encodes 0xF000 0x4000 (fun w => .sneByte (fieldX w) (fieldKk w)) ∧
  Encodes 0xF000 0x5000 (fun w => .seReg (fieldX w) (fieldY w)) ∧
  Encodes 0xF000 0x9000 (fun w => .sneReg (fieldX w) (fieldY w)) ∧
  ∀ (x y : RegIdx) (kk : Byte) (s : State),
    (∃ t, exec (.seByte x kk) s = .next t ∧ t.pc = (if s.reg x = kk then s.pc + 4 else s.pc + 2) ∧
      RegisterFrame [] s t) ∧
    (∃ t, exec (.sneByte x kk) s = .next t ∧ t.pc = (if s.reg x = kk then s.pc + 2 else s.pc + 4) ∧
      RegisterFrame [] s t) ∧
    (∃ t, exec (.seReg x y) s = .next t ∧ t.pc = (if s.reg x = s.reg y then s.pc + 4 else s.pc + 2) ∧
      RegisterFrame [] s t) ∧
    (∃ t, exec (.sneReg x y) s = .next t ∧ t.pc = (if s.reg x = s.reg y then s.pc + 2 else s.pc + 4) ∧
      RegisterFrame [] s t)

/-! ### The address register and memory -/

/-- load-I, add-to-I and font-address (R180, R181, R182): the absolute address; the sum modulo 65536; all eight bits of
`V[x]` times 5. None sets a flag. -/
def Obligations.AddressRegisterInstructionsSetI : Prop :=
  Encodes 0xF000 0xA000 (fun w => .ldI (fieldNnn w)) ∧ Encodes 0xF0FF 0xF01E (fun w => .addI (fieldX w)) ∧
  Encodes 0xF0FF 0xF029 (fun w => .fontAddr (fieldX w)) ∧
  ∀ (nnn : Addr12) (x : RegIdx) (s : State),
    (∃ t, exec (.ldI nnn) s = .next t ∧ t.i.toNat = nnn.toNat ∧ t.pc = s.pc + 2 ∧
      SameRegsExcept [] s t ∧ SameTimers s t ∧ SameStack s t ∧ SameMemory s t ∧ SamePixels s t ∧ SameHidden s t) ∧
    (∃ t, exec (.addI x) s = .next t ∧ t.i.toNat = (s.i.toNat + (s.reg x).toNat) % 65536 ∧ t.pc = s.pc + 2 ∧
      SameRegsExcept [] s t ∧ SameTimers s t ∧ SameStack s t ∧ SameMemory s t ∧ SamePixels s t ∧ SameHidden s t) ∧
    (∃ t, exec (.fontAddr x) s = .next t ∧ t.i.toNat = (s.reg x).toNat * 5 ∧ t.pc = s.pc + 2 ∧
      SameRegsExcept [] s t ∧ SameTimers s t ∧ SameStack s t ∧ SameMemory s t ∧ SamePixels s t ∧ SameHidden s t)

/-- store-BCD (R183): the three digits at `I`, `I + 1`, `I + 2`, and no other byte, for a memory in canonical form; with
`I > 0xFFD` a fault with code 4 and nothing written (R80, R220; the spec's decisions D8, D9 and D11). -/
def Obligations.StoreBcdWritesThreeDigits : Prop :=
  Encodes 0xF0FF 0xF033 (fun w => .storeBcd (fieldX w)) ∧
  ∀ (x : RegIdx) (s : State), s.mem.wf →
    (s.i.toNat ≤ 0xFFD → ∃ t, exec (.storeBcd x) s = .next t ∧
      (t.mem.read (ea s 0)).toNat = (s.reg x).toNat / 100 ∧
      (t.mem.read (ea s 1)).toNat = (s.reg x).toNat / 10 % 10 ∧
      (t.mem.read (ea s 2)).toNat = (s.reg x).toNat % 10 ∧
      SameMemoryOutside (ea s 0) 3 s t ∧ t.pc = s.pc + 2 ∧
      SameRegsExcept [] s t ∧ t.i = s.i ∧ SameTimers s t ∧ SameStack s t ∧ SamePixels s t ∧ SameHidden s t) ∧
    (0xFFD < s.i.toNat → exec (.storeBcd x) s = .next { s with
      runState := .faulted, faultCode := 4, faultInfo := BitVec.ofNat 16 (max s.i.toNat 0x1000) })

/-- store-registers (R184): `V[0]` to `V[x]` from `I` on, and no other byte, for a memory in canonical form; `I`
unchanged; with `I + x > 0xFFF` a fault with code 4 and nothing written (R80, R220; the spec's decisions D8, D9 and
D11). -/
def Obligations.StoreRegistersWritesTheBlock : Prop :=
  Encodes 0xF0FF 0xF055 (fun w => .storeRegs (fieldX w)) ∧
  ∀ (x : RegIdx) (s : State), s.mem.wf →
    (s.i.toNat + x.val ≤ 0xFFF → ∃ t, exec (.storeRegs x) s = .next t ∧
      (∀ k : RegIdx, k ≤ x → t.mem.read (ea s k.val) = s.reg k) ∧
      SameMemoryOutside (ea s 0) (x.val + 1) s t ∧ t.pc = s.pc + 2 ∧
      SameRegsExcept [] s t ∧ t.i = s.i ∧ SameTimers s t ∧ SameStack s t ∧ SamePixels s t ∧ SameHidden s t) ∧
    (0xFFF < s.i.toNat + x.val → exec (.storeRegs x) s = .next { s with
      runState := .faulted, faultCode := 4, faultInfo := BitVec.ofNat 16 (max s.i.toNat 0x1000) })

/-- load-registers (R185): `V[0]` to `V[x]` from `I` on; registers above `x`, memory and `I` unchanged; with
`I + x > 0xFFF` a fault with code 4 and no register changed (R80, R220; the spec's decisions D8, D9 and D11). -/
def Obligations.LoadRegistersReadsTheBlock : Prop :=
  Encodes 0xF0FF 0xF065 (fun w => .loadRegs (fieldX w)) ∧
  ∀ (x : RegIdx) (s : State),
    (s.i.toNat + x.val ≤ 0xFFF → ∃ t, exec (.loadRegs x) s = .next t ∧
      (∀ k : RegIdx, k ≤ x → t.reg k = s.mem.read (ea s k.val)) ∧ (∀ k : RegIdx, x < k → t.reg k = s.reg k) ∧
      t.pc = s.pc + 2 ∧
      t.i = s.i ∧ SameTimers s t ∧ SameStack s t ∧ SameMemory s t ∧ SamePixels s t ∧ SameHidden s t) ∧
    (0xFFF < s.i.toNat + x.val → exec (.loadRegs x) s = .next { s with
      runState := .faulted, faultCode := 4, faultInfo := BitVec.ofNat 16 (max s.i.toNat 0x1000) })

/-- Storing a block and loading it back with `I` and memory as they are leaves every register as it was (R184, R185). -/
def Obligations.StoreThenLoadRestoresRegisters : Prop :=
  ∀ (x : RegIdx) (s : State), s.mem.wf → s.i.toNat + x.val ≤ 0xFFF →
    ∃ t u, exec (.storeRegs x) s = .next t ∧ exec (.loadRegs x) t = .next u ∧ SameRegsExcept [] s u

/-- A store is seen by the fetch of the very next step (R74): a block stored over the next instruction is what is
fetched. -/
def Obligations.StoresAreSeenByTheNextFetch : Prop :=
  ∀ (x : RegIdx) (s : State), s.mem.wf → s.pc.toNat + 2 ≤ 0xFFE → s.i = s.pc + 2 → 1 ≤ x.val →
    s.i.toNat + x.val ≤ 0xFFF →
    ∃ t, exec (.storeRegs x) s = .next t ∧ fetch16 t = .ok (wordOfBytes (s.reg 0) (s.reg 1))

/-! ### Display -/

/-- clear-screen (R190): every pixel off, `VF` and everything else as it was. -/
def Obligations.ClearScreenTurnsEveryPixelOff : Prop :=
  Encodes 0xFFFF 0x00E0 (fun _ => .cls) ∧
  ∀ s : State, ∃ t, exec .cls s = .next t ∧ (∀ row col, t.pixel row col = false) ∧ t.pc = s.pc + 2 ∧
    SameRegsExcept [] s t ∧ t.i = s.i ∧ SameTimers s t ∧ SameStack s t ∧ SameMemory s t ∧ SameHidden s t

/-- draw as a function (R191, R192): the framebuffer is XORed with the sprite's image, wrapped per pixel, and `VF` is 1
exactly when the two share an on pixel; outside memory it faults with code 4 and draws nothing (R80, R220). One bit a
pixel, wrapping and the latching of coordinates are the spec's decisions D17 and D12; the fault is D9, its code D11. -/
def Obligations.DrawXorsTheSpriteImage : Prop :=
  Encodes 0xF000 0xD000 (fun w => .drw (fieldX w) (fieldY w) (fieldN w)) ∧
  ∀ (x y : RegIdx) (n : Nibble) (s : State),
    ((n = 0 ∨ s.i.toNat + n.toNat ≤ 0x1000) → ∃ t, exec (.drw x y n) s = .next t ∧
      (∀ row col, (t.pixel row col = true ↔ ¬ (s.pixel row col = true ↔ SpriteCovers s x y n row col))) ∧
      ((∃ row col, s.pixel row col = true ∧ SpriteCovers s x y n row col) → t.reg 15 = 1) ∧
      ((¬ ∃ row col, s.pixel row col = true ∧ SpriteCovers s x y n row col) → t.reg 15 = 0) ∧
      t.pc = s.pc + 2 ∧
      SameRegsExcept [15] s t ∧ t.i = s.i ∧ SameTimers s t ∧ SameStack s t ∧ SameMemory s t ∧ SameHidden s t) ∧
    (n ≠ 0 → 0x1000 < s.i.toNat + n.toNat → exec (.drw x y n) s = .next { s with
      runState := .faulted, faultCode := 4, faultInfo := BitVec.ofNat 16 (max s.i.toNat 0x1000) })

/-- Drawing the same sprite twice at the same place restores every pixel, and the second draw reports a collision exactly
when the first turned a pixel on (R191). -/
def Obligations.DrawTwiceRestoresTheScreen : Prop :=
  ∀ (x y : RegIdx) (n : Nibble) (s : State), x ≠ 15 → y ≠ 15 → (n = 0 ∨ s.i.toNat + n.toNat ≤ 0x1000) →
    ∃ t u, exec (.drw x y n) s = .next t ∧ exec (.drw x y n) t = .next u ∧ SamePixels s u ∧
      (u.reg 15 = 1 ↔ ∃ row col, s.pixel row col = false ∧ SpriteCovers s x y n row col)

/-- While the font is in memory, font-address followed by a draw of five rows shows the glyph that `V[x]` names, XORed
onto the screen row by row, most significant bit leftmost (R182, R191). It holds for every drawing place, on the bytes
of the model's `FONT` (log 1). -/
def Obligations.FontAddressThenDrawShowsTheGlyph : Prop :=
  ∀ (x a b : RegIdx) (s : State), (∀ k < 80, Config.font[k]? = some (s.mem.read k)) → (s.reg x).toNat < 16 →
    ∃ t u, exec (.fontAddr x) s = .next t ∧ exec (.drw a b 5) t = .next u ∧
      ∀ (r c : Nat) (row : Fin 32) (col : Fin 64), r < 5 → c < 8 →
        row.val = ((s.reg b).toNat + r) % 32 → col.val = ((s.reg a).toNat + c) % 64 →
        u.pixel row col = (s.pixel row col ^^ (Config.font.getD ((s.reg x).toNat * 5 + r) 0).getLsbD (7 - c))

/-! ### Keypad, timers, unrecognized words -/

/-- skip-key-pressed and skip-key-not-pressed (R200, R201): the key is the low four bits of `V[x]` (R206; the spec's
decision D15), the skip is `PC + 4` (D4). -/
def Obligations.KeySkipsTestOneKey : Prop :=
  Encodes 0xF0FF 0xE09E (fun w => .skp (fieldX w)) ∧ Encodes 0xF0FF 0xE0A1 (fun w => .sknp (fieldX w)) ∧
  ∀ (x : RegIdx) (s : State),
    (∃ t, exec (.skp x) s = .next t ∧
      t.pc = (if s.keys.getLsbD ((s.reg x).toNat % 16) = true then s.pc + 4 else s.pc + 2) ∧ RegisterFrame [] s t) ∧
    (∃ t, exec (.sknp x) s = .next t ∧
      t.pc = (if s.keys.getLsbD ((s.reg x).toNat % 16) = true then s.pc + 2 else s.pc + 4) ∧ RegisterFrame [] s t)

/-- wait-key (R203): with no key down no state changes, `PC` included; otherwise `V[x]` gets the least pressed key (the
spec's decision D16). -/
def Obligations.WaitKeyPollsOrTakesTheLeastKey : Prop :=
  Encodes 0xF0FF 0xF00A (fun w => .waitKey (fieldX w)) ∧
  ∀ (x : RegIdx) (s : State),
    (s.keys = 0 → exec (.waitKey x) s = .next s) ∧
    (s.keys ≠ 0 → ∃ t, exec (.waitKey x) s = .next t ∧ ∃ k < 16, s.keys.getLsbD k = true ∧
      (∀ j < k, s.keys.getLsbD j = false) ∧ (t.reg x).toNat = k ∧ t.pc = s.pc + 2 ∧ RegisterFrame [x] s t)

/-- read-delay, set-delay, set-sound (R202, R204, R205): the timer instructions move one byte, send no pulse and leave
`TONE` alone. The tick after set-sound sends what the value and `TONE` call for (R129, R130), in all six cases: a
non-zero value starts a tone only if none sounds, and zero ends one only if it sounds. The `TONE` bit is the spec's
decision D19, the list of pulses the model's (log 2). -/
def Obligations.TimerInstructionsMoveOneByte : Prop :=
  Encodes 0xF0FF 0xF007 (fun w => .readDelay (fieldX w)) ∧ Encodes 0xF0FF 0xF015 (fun w => .setDelay (fieldX w)) ∧
  Encodes 0xF0FF 0xF018 (fun w => .setSound (fieldX w)) ∧
  ∀ (x : RegIdx) (s : State),
    (∃ t, exec (.readDelay x) s = .next t ∧ t.reg x = s.dt ∧ t.pc = s.pc + 2 ∧ RegisterFrame [x] s t) ∧
    (∃ t, exec (.setDelay x) s = .next t ∧ t.dt = s.reg x ∧ t.pc = s.pc + 2 ∧ t.st = s.st ∧
      SameRegsExcept [] s t ∧ t.i = s.i ∧ SameStack s t ∧ SameMemory s t ∧ SamePixels s t ∧ SameHidden s t) ∧
    (∃ t, exec (.setSound x) s = .next t ∧ t.st = s.reg x ∧ t.pc = s.pc + 2 ∧ t.dt = s.dt ∧
      SameRegsExcept [] s t ∧ t.i = s.i ∧ SameStack s t ∧ SameMemory s t ∧ SamePixels s t ∧ SameHidden s t ∧
      (s.reg x = 0 → s.tone = false → (tickEvent t).sound = s.sound) ∧
      (s.reg x = 0 → s.tone = true → (tickEvent t).sound = s.sound ++ [.stop]) ∧
      (s.reg x = 1 → s.tone = false → (tickEvent t).sound = s.sound ++ [.start, .stop]) ∧
      (s.reg x = 1 → s.tone = true → (tickEvent t).sound = s.sound ++ [.stop]) ∧
      (1 < (s.reg x).toNat → s.tone = false → (tickEvent t).sound = s.sound ++ [.start]) ∧
      (1 < (s.reg x).toNat → s.tone = true → (tickEvent t).sound = s.sound))

/-- The words no instruction row selects (R102) are exactly those that decode to an unrecognized row; a step of one
samples no port, and executing it advances `PC` by 2 and changes nothing else (R210). That families 0, E and F match the
whole word or byte is the spec's decision D14, the patterns its general knowledge (GK1). -/
def Obligations.UnrecognizedWordsOnlyAdvancePc : Prop :=
  (∀ w : Word, (decodeWord w).recognized = false ↔
    (fieldOp w = 0x0 ∧ w ≠ 0x00E0 ∧ w ≠ 0x00EE) ∨
    (fieldOp w = 0x8 ∧ fieldN w ∈ ([0x8, 0x9, 0xA, 0xB, 0xC, 0xD, 0xF] : List Nibble)) ∨
    (fieldOp w = 0xE ∧ fieldKk w ∉ ([0x9E, 0xA1] : List Byte)) ∨
    (fieldOp w = 0xF ∧
      fieldKk w ∉ ([0x07, 0x0A, 0x15, 0x18, 0x1E, 0x29, 0x33, 0x55, 0x65] : List Byte))) ∧
  (∀ (i : Instr) (s : State), i.recognized = false → ∃ t, exec i s = .next t ∧ t.pc = s.pc + 2 ∧
    RegisterFrame [] s t ∧ ∀ keys rnd, s.samplePorts i keys rnd = s)

/-! ### Rules of the whole machine -/

/-- The fixed points of R132: a step at a jump to its own address changes nothing, and a step at wait-key with no key
down changes only what the model notes of the keys it sampled (log 2). That the jump stays is the spec's decision D6,
polling is D16. -/
def Obligations.SelfJumpAndIdleWaitAreFixedPoints : Prop :=
  ∀ (s : State) (keys : Word) (rnd : Byte), s.runState = .running → s.pc.toNat ≤ 0xFFE →
    (∀ nnn : Addr12, nnn.toNat = s.pc.toNat →
      decodeWord (wordOfBytes (s.mem.read s.pc.toNat) (s.mem.read (s.pc.toNat + 1))) = .jp nnn →
      stepEvent keys rnd s = .next s) ∧
    (∀ x, decodeWord (wordOfBytes (s.mem.read s.pc.toNat) (s.mem.read (s.pc.toNat + 1))) = .waitKey x →
      stepEvent 0 rnd s = .next { s with keys := 0, samples := s.samples + 1 })

/-- Every instruction but the transfers, the skips and wait-key goes on at `PC + 2` unless it faults (R125). -/
def Obligations.OrdinaryInstructionsAdvanceByTwo : Prop :=
  ∀ (i : Instr) (s t : State), fatalOf i s = none → exec i s = .next t →
    i ≠ .ret → (∀ nnn, i ≠ .jp nnn) → (∀ nnn, i ≠ .call nnn) → (∀ nnn, i ≠ .jpV0 nnn) →
    (∀ x kk, i ≠ .seByte x kk) → (∀ x kk, i ≠ .sneByte x kk) → (∀ x y, i ≠ .seReg x y) →
    (∀ x y, i ≠ .sneReg x y) → (∀ x, i ≠ .skp x) → (∀ x, i ≠ .sknp x) → (∀ x, i ≠ .waitKey x) →
    t.pc = s.pc + 2

/-- The framebuffer is "mutated only by the draw instruction and the clear instruction" (R29). -/
def Obligations.OnlyDrawAndClearChangePixels : Prop :=
  ∀ (i : Instr) (s t : State), exec i s = .next t → (∀ x y n, i ≠ .drw x y n) → i ≠ .cls → SamePixels s t

/-- Only store-BCD and store-registers write memory; call and return never do (R40, R60). -/
def Obligations.OnlyStoresWriteMemory : Prop :=
  ∀ (i : Instr) (s t : State), exec i s = .next t → (∀ x, i ≠ .storeBcd x) → (∀ x, i ≠ .storeRegs x) →
    SameMemory s t

/-- Only load-I, add-to-I and font-address change `I`; the block transfers leave it as it was (R186). -/
def Obligations.OnlyThreeInstructionsChangeI : Prop :=
  ∀ (i : Instr) (s t : State), exec i s = .next t → (∀ nnn, i ≠ .ldI nnn) → (∀ x, i ≠ .addI x) →
    (∀ x, i ≠ .fontAddr x) → t.i = s.i

/-- Only call pushes and only return pops, and only by one slot (R27). -/
def Obligations.OnlyCallAndReturnMoveTheStack : Prop :=
  ∀ (i : Instr) (s t : State), exec i s = .next t → (∀ nnn, i ≠ .call nnn) → i ≠ .ret → SameStack s t

/-- "no instruction reads" the sound timer, and only set-sound writes it (R26); `DT` is read by read-delay and written
by set-delay alone (R25). Changing a timer before any other instruction changes nothing but that timer after it. -/
def Obligations.TimersMatterOnlyToTheirInstructions : Prop :=
  ∀ (i : Instr) (s t : State) (b : Byte), exec i s = .next t →
    ((∀ x, i ≠ .setSound x) → exec i { s with st := b } = .next { t with st := b }) ∧
    ((∀ x, i ≠ .setDelay x) → (∀ x, i ≠ .readDelay x) → exec i { s with dt := b } = .next { t with dt := b })

/-- No instruction reads or writes `TONE` or `ROM` (R30, R32), nor what the host has been sent or has scheduled. -/
def Obligations.NoInstructionUsesToneOrImage : Prop :=
  ∀ (i : Instr) (s t : State) (c : Bool) (image : List Byte) (pulses : List SoundPulse) (events : List HostEvent),
    exec i s = .next t →
    exec i { s with tone := c, rom := image, sound := pulses, schedule := events } =
      .next { t with tone := c, rom := image, sound := pulses, schedule := events }

/-- The ports are ignored by every instruction that does not sample them (R36): the keys matter to skip-key-pressed,
skip-key-not-pressed and wait-key, the random byte to random. So it is of the ports' fields in State under `exec`, and of
the levels the host holds under a whole step; a step that samples neither port notes nothing of them (log 10). -/
def Obligations.PortsMatterOnlyToTheirInstructions : Prop :=
  (∀ (i : Instr) (s t : State) (keys : Word) (rnd : Byte), exec i s = .next t →
    ((∀ x kk, i ≠ .rnd x kk) → exec i { s with rnd := rnd } = .next { t with rnd := rnd }) ∧
    ((∀ x, i ≠ .skp x) → (∀ x, i ≠ .sknp x) → (∀ x, i ≠ .waitKey x) →
      exec i { s with keys := keys } = .next { t with keys := keys })) ∧
  (∀ (s : State) (i : Instr) (keys keys' : Word) (rnd rnd' : Byte),
    decodeWord (wordOfBytes (s.mem.read s.pc.toNat) (s.mem.read (s.pc.toNat + 1))) = i →
    ((∀ x kk, i ≠ .rnd x kk) → stepEvent keys rnd s = stepEvent keys rnd' s) ∧
    ((∀ x, i ≠ .skp x) → (∀ x, i ≠ .sknp x) → (∀ x, i ≠ .waitKey x) →
      stepEvent keys rnd s = stepEvent keys' rnd s ∧
      ((∀ x kk, i ≠ .rnd x kk) → s.samplePorts i keys rnd = s)))
end

