-- ==== Sys2Proof/Laws/Decode.lean ====
section
/-! SUPPORT. The fields of a word: what each format puts where, what a mask of the opcode map keeps, and that its fields
determine a word. -/

namespace Sys2Proof

/-! ### The fields of the three formats -/

theorem formatNNN_fields (op : Nat) (nnn : Addr12) (h : op < 16) :
    (fieldOp (formatNNN op nnn)).toNat = op ∧ fieldNnn (formatNNN op nnn) = nnn := by
  have := nnn.isLt
  refine ⟨?_, BitVec.eq_of_toNat_eq ?_⟩ <;>
    simp [fieldOp, fieldNnn, formatNNN, Nat.shiftRight_eq_div_pow] <;> omega

theorem formatXKK_fields (op : Nat) (x : RegIdx) (kk : Byte) (h : op < 16) :
    (fieldOp (formatXKK op x kk)).toNat = op ∧ fieldX (formatXKK op x kk) = x ∧
      fieldKk (formatXKK op x kk) = kk := by
  have := x.isLt; have := kk.isLt
  refine ⟨?_, Fin.ext ?_, BitVec.eq_of_toNat_eq ?_⟩ <;>
    simp [fieldOp, fieldX, fieldKk, formatXKK, Nat.shiftRight_eq_div_pow] <;> omega

theorem formatXYN_fields (op : Nat) (x y : RegIdx) (n : Nibble) (h : op < 16) :
    (fieldOp (formatXYN op x y n)).toNat = op ∧ fieldX (formatXYN op x y n) = x ∧
      fieldY (formatXYN op x y n) = y ∧ fieldN (formatXYN op x y n) = n := by
  have := x.isLt; have := y.isLt; have := n.isLt
  refine ⟨?_, Fin.ext ?_, Fin.ext ?_, BitVec.eq_of_toNat_eq ?_⟩ <;>
    simp [fieldOp, fieldX, fieldY, fieldN, formatXYN, Nat.shiftRight_eq_div_pow] <;> omega

/-! ### A word is its fields -/

theorem word_ext_nnn {w w' : Word} (ho : fieldOp w = fieldOp w') (hn : fieldNnn w = fieldNnn w') : w = w' := by
  have a := congrArg BitVec.toNat ho
  have b := congrArg BitVec.toNat hn
  simp [fieldOp, fieldNnn, Nat.shiftRight_eq_div_pow] at a b
  have := w.isLt; have := w'.isLt
  exact BitVec.eq_of_toNat_eq (by omega)

theorem word_ext_xkk {w w' : Word} (ho : fieldOp w = fieldOp w') (hx : fieldX w = fieldX w')
    (hk : fieldKk w = fieldKk w') : w = w' := by
  have a := congrArg BitVec.toNat ho
  have b := congrArg Fin.val hx
  have c := congrArg BitVec.toNat hk
  simp [fieldOp, fieldX, fieldKk, Nat.shiftRight_eq_div_pow] at a b c
  have := w.isLt; have := w'.isLt
  exact BitVec.eq_of_toNat_eq (by omega)

theorem word_ext_xyn {w w' : Word} (ho : fieldOp w = fieldOp w') (hx : fieldX w = fieldX w')
    (hy : fieldY w = fieldY w') (hn : fieldN w = fieldN w') : w = w' := by
  have a := congrArg BitVec.toNat ho
  have b := congrArg Fin.val hx
  have c := congrArg Fin.val hy
  have d := congrArg BitVec.toNat hn
  simp [fieldOp, fieldX, fieldY, fieldN, Nat.shiftRight_eq_div_pow] at a b c d
  have := w.isLt; have := w'.isLt
  exact BitVec.eq_of_toNat_eq (by omega)

/-! ### Masking -/

theorem fieldOp_and (w m : Word) : fieldOp (w &&& m) = fieldOp w &&& fieldOp m := BitVec.extractLsb'_and
theorem fieldN_and (w m : Word) : fieldN (w &&& m) = fieldN w &&& fieldN m := BitVec.extractLsb'_and
theorem fieldKk_and (w m : Word) : fieldKk (w &&& m) = fieldKk w &&& fieldKk m := BitVec.extractLsb'_and

/-! ### What a word that selects a row has in its fields -/

theorem fieldOp_of_selects {mask mat w : Word} (h : selects mask mat w)
    (hm : fieldOp mask = BitVec.allOnes 4) : fieldOp w = fieldOp mat := by
  rw [← show w &&& mask = mat from h, fieldOp_and, hm, BitVec.and_allOnes]

theorem fieldN_of_selects {mask mat w : Word} (h : selects mask mat w)
    (hm : fieldN mask = BitVec.allOnes 4) : fieldN w = fieldN mat := by
  rw [← show w &&& mask = mat from h, fieldN_and, hm, BitVec.and_allOnes]

theorem fieldKk_of_selects {mask mat w : Word} (h : selects mask mat w)
    (hm : fieldKk mask = BitVec.allOnes 8) : fieldKk w = fieldKk mat := by
  rw [← show w &&& mask = mat from h, fieldKk_and, hm, BitVec.and_allOnes]

theorem eq_of_selects_all {mat w : Word} (h : selects 0xFFFF mat w) : w = mat := by
  rw [← show w &&& 0xFFFF = mat from h, show (0xFFFF : Word) = BitVec.allOnes 16 by decide, BitVec.and_allOnes]

/-! ### Which row a word selects, from its fields -/

theorem selects_of_op {mat w : Word} (ho : fieldOp w = fieldOp mat) (hm : mat &&& 0xF000 = mat) :
    selects 0xF000 mat w := by
  rw [selects, ← hm]
  refine word_ext_nnn ?_ ?_
  · rw [fieldOp_and, fieldOp_and, ho]
  · simp [fieldNnn, BitVec.extractLsb'_and, show BitVec.extractLsb' 0 12 (0xF000#16) = 0 by decide]

theorem selects_of_op_n {mat w : Word} (ho : fieldOp w = fieldOp mat) (hn : fieldN w = fieldN mat)
    (hm : mat &&& 0xF00F = mat) : selects 0xF00F mat w := by
  rw [selects, ← hm]
  refine word_ext_xyn ?_ ?_ ?_ ?_
  · rw [fieldOp_and, fieldOp_and, ho]
  · simp [fieldX, BitVec.extractLsb'_and, show BitVec.extractLsb' 8 4 (0xF00F#16) = 0 by decide]
  · simp [fieldY, BitVec.extractLsb'_and, show BitVec.extractLsb' 4 4 (0xF00F#16) = 0 by decide]
  · rw [fieldN_and, fieldN_and, hn]

theorem selects_of_op_kk {mat w : Word} (ho : fieldOp w = fieldOp mat) (hk : fieldKk w = fieldKk mat)
    (hm : mat &&& 0xF0FF = mat) : selects 0xF0FF mat w := by
  rw [selects, ← hm]
  refine word_ext_xkk ?_ ?_ ?_
  · rw [fieldOp_and, fieldOp_and, ho]
  · simp [fieldX, BitVec.extractLsb'_and, show BitVec.extractLsb' 8 4 (0xF0FF#16) = 0 by decide]
  · rw [fieldKk_and, fieldKk_and, hk]

/-! ### An encoded instruction selects a row -/

theorem formatNNN_selects (op : Nat) (nnn : Addr12) {mat : Word} (h : op < 16) (ho : (fieldOp mat).toNat = op)
    (hm : mat &&& 0xF000 = mat) : selects 0xF000 mat (formatNNN op nnn) :=
  selects_of_op (BitVec.eq_of_toNat_eq ((formatNNN_fields op nnn h).1.trans ho.symm)) hm

theorem formatXKK_selects (op : Nat) (x : RegIdx) (kk : Byte) {mat : Word} (h : op < 16)
    (ho : (fieldOp mat).toNat = op) (hm : mat &&& 0xF000 = mat) : selects 0xF000 mat (formatXKK op x kk) :=
  selects_of_op (BitVec.eq_of_toNat_eq ((formatXKK_fields op x kk h).1.trans ho.symm)) hm

theorem formatXKK_selects_kk (op : Nat) (x : RegIdx) (kk : Byte) {mat : Word} (h : op < 16)
    (ho : (fieldOp mat).toNat = op) (hk : kk = fieldKk mat) (hm : mat &&& 0xF0FF = mat) :
    selects 0xF0FF mat (formatXKK op x kk) :=
  selects_of_op_kk (BitVec.eq_of_toNat_eq ((formatXKK_fields op x kk h).1.trans ho.symm))
    ((formatXKK_fields op x kk h).2.2.trans hk) hm

theorem formatXYN_selects (op : Nat) (x y : RegIdx) (n : Nibble) {mat : Word} (h : op < 16)
    (ho : (fieldOp mat).toNat = op) (hm : mat &&& 0xF000 = mat) : selects 0xF000 mat (formatXYN op x y n) :=
  selects_of_op (BitVec.eq_of_toNat_eq ((formatXYN_fields op x y n h).1.trans ho.symm)) hm

theorem formatXYN_selects_n (op : Nat) (x y : RegIdx) (n : Nibble) {mat : Word} (h : op < 16)
    (ho : (fieldOp mat).toNat = op) (hn : n = fieldN mat) (hm : mat &&& 0xF00F = mat) :
    selects 0xF00F mat (formatXYN op x y n) :=
  selects_of_op_n (BitVec.eq_of_toNat_eq ((formatXYN_fields op x y n h).1.trans ho.symm))
    ((formatXYN_fields op x y n h).2.2.2.trans hn) hm

end Sys2Proof
end

