-- ==== Sys2Proof/Laws/State.lean ====
section
/-! SUPPORT. What every update of the state does to every field: one lemma per field and update, true by rfl. -/

namespace Sys2Proof.Machine

variable (s : State)

/-! ### `setReg` -/

@[simp] theorem setReg_v (r : RegIdx) (b : Byte) : (s.setReg r b).v = s.v.set r b := rfl
@[simp] theorem setReg_i (r : RegIdx) (b : Byte) : (s.setReg r b).i = s.i := rfl
@[simp] theorem setReg_pc (r : RegIdx) (b : Byte) : (s.setReg r b).pc = s.pc := rfl
@[simp] theorem setReg_dt (r : RegIdx) (b : Byte) : (s.setReg r b).dt = s.dt := rfl
@[simp] theorem setReg_st (r : RegIdx) (b : Byte) : (s.setReg r b).st = s.st := rfl
@[simp] theorem setReg_stack (r : RegIdx) (b : Byte) : (s.setReg r b).stack = s.stack := rfl
@[simp] theorem setReg_sp (r : RegIdx) (b : Byte) : (s.setReg r b).sp = s.sp := rfl
@[simp] theorem setReg_mem (r : RegIdx) (b : Byte) : (s.setReg r b).mem = s.mem := rfl
@[simp] theorem setReg_fb (r : RegIdx) (b : Byte) : (s.setReg r b).fb = s.fb := rfl
@[simp] theorem setReg_tone (r : RegIdx) (b : Byte) : (s.setReg r b).tone = s.tone := rfl
@[simp] theorem setReg_runState (r : RegIdx) (b : Byte) : (s.setReg r b).runState = s.runState := rfl
@[simp] theorem setReg_faultCode (r : RegIdx) (b : Byte) : (s.setReg r b).faultCode = s.faultCode := rfl
@[simp] theorem setReg_faultInfo (r : RegIdx) (b : Byte) : (s.setReg r b).faultInfo = s.faultInfo := rfl
@[simp] theorem setReg_rom (r : RegIdx) (b : Byte) : (s.setReg r b).rom = s.rom := rfl
@[simp] theorem setReg_keys (r : RegIdx) (b : Byte) : (s.setReg r b).keys = s.keys := rfl
@[simp] theorem setReg_rnd (r : RegIdx) (b : Byte) : (s.setReg r b).rnd = s.rnd := rfl
@[simp] theorem setReg_sound (r : RegIdx) (b : Byte) : (s.setReg r b).sound = s.sound := rfl
@[simp] theorem setReg_schedule (r : RegIdx) (b : Byte) : (s.setReg r b).schedule = s.schedule := rfl
@[simp] theorem setReg_samples (r : RegIdx) (b : Byte) : (s.setReg r b).samples = s.samples := rfl
@[simp] theorem setReg_pixel (r : RegIdx) (b : Byte) (row : Fin 32) (col : Fin 64) : (s.setReg r b).pixel row col = s.pixel row col := rfl

/-! ### `setLowRegs` -/

@[simp] theorem setLowRegs_v (bytes : List Byte) : (s.setLowRegs bytes).v = Vector.ofFn fun r : RegIdx => bytes.getD r.val (s.reg r) := rfl
@[simp] theorem setLowRegs_i (bytes : List Byte) : (s.setLowRegs bytes).i = s.i := rfl
@[simp] theorem setLowRegs_pc (bytes : List Byte) : (s.setLowRegs bytes).pc = s.pc := rfl
@[simp] theorem setLowRegs_dt (bytes : List Byte) : (s.setLowRegs bytes).dt = s.dt := rfl
@[simp] theorem setLowRegs_st (bytes : List Byte) : (s.setLowRegs bytes).st = s.st := rfl
@[simp] theorem setLowRegs_stack (bytes : List Byte) : (s.setLowRegs bytes).stack = s.stack := rfl
@[simp] theorem setLowRegs_sp (bytes : List Byte) : (s.setLowRegs bytes).sp = s.sp := rfl
@[simp] theorem setLowRegs_mem (bytes : List Byte) : (s.setLowRegs bytes).mem = s.mem := rfl
@[simp] theorem setLowRegs_fb (bytes : List Byte) : (s.setLowRegs bytes).fb = s.fb := rfl
@[simp] theorem setLowRegs_tone (bytes : List Byte) : (s.setLowRegs bytes).tone = s.tone := rfl
@[simp] theorem setLowRegs_runState (bytes : List Byte) : (s.setLowRegs bytes).runState = s.runState := rfl
@[simp] theorem setLowRegs_faultCode (bytes : List Byte) : (s.setLowRegs bytes).faultCode = s.faultCode := rfl
@[simp] theorem setLowRegs_faultInfo (bytes : List Byte) : (s.setLowRegs bytes).faultInfo = s.faultInfo := rfl
@[simp] theorem setLowRegs_rom (bytes : List Byte) : (s.setLowRegs bytes).rom = s.rom := rfl
@[simp] theorem setLowRegs_keys (bytes : List Byte) : (s.setLowRegs bytes).keys = s.keys := rfl
@[simp] theorem setLowRegs_rnd (bytes : List Byte) : (s.setLowRegs bytes).rnd = s.rnd := rfl
@[simp] theorem setLowRegs_sound (bytes : List Byte) : (s.setLowRegs bytes).sound = s.sound := rfl
@[simp] theorem setLowRegs_schedule (bytes : List Byte) : (s.setLowRegs bytes).schedule = s.schedule := rfl
@[simp] theorem setLowRegs_samples (bytes : List Byte) : (s.setLowRegs bytes).samples = s.samples := rfl
@[simp] theorem setLowRegs_pixel (bytes : List Byte) (row : Fin 32) (col : Fin 64) : (s.setLowRegs bytes).pixel row col = s.pixel row col := rfl

/-! ### `setI` -/

@[simp] theorem setI_v (a : Word) : (s.setI a).v = s.v := rfl
@[simp] theorem setI_i (a : Word) : (s.setI a).i = a := rfl
@[simp] theorem setI_pc (a : Word) : (s.setI a).pc = s.pc := rfl
@[simp] theorem setI_dt (a : Word) : (s.setI a).dt = s.dt := rfl
@[simp] theorem setI_st (a : Word) : (s.setI a).st = s.st := rfl
@[simp] theorem setI_stack (a : Word) : (s.setI a).stack = s.stack := rfl
@[simp] theorem setI_sp (a : Word) : (s.setI a).sp = s.sp := rfl
@[simp] theorem setI_mem (a : Word) : (s.setI a).mem = s.mem := rfl
@[simp] theorem setI_fb (a : Word) : (s.setI a).fb = s.fb := rfl
@[simp] theorem setI_tone (a : Word) : (s.setI a).tone = s.tone := rfl
@[simp] theorem setI_runState (a : Word) : (s.setI a).runState = s.runState := rfl
@[simp] theorem setI_faultCode (a : Word) : (s.setI a).faultCode = s.faultCode := rfl
@[simp] theorem setI_faultInfo (a : Word) : (s.setI a).faultInfo = s.faultInfo := rfl
@[simp] theorem setI_rom (a : Word) : (s.setI a).rom = s.rom := rfl
@[simp] theorem setI_keys (a : Word) : (s.setI a).keys = s.keys := rfl
@[simp] theorem setI_rnd (a : Word) : (s.setI a).rnd = s.rnd := rfl
@[simp] theorem setI_sound (a : Word) : (s.setI a).sound = s.sound := rfl
@[simp] theorem setI_schedule (a : Word) : (s.setI a).schedule = s.schedule := rfl
@[simp] theorem setI_samples (a : Word) : (s.setI a).samples = s.samples := rfl
@[simp] theorem setI_reg (a : Word) (q : RegIdx) : (s.setI a).reg q = s.reg q := rfl
@[simp] theorem setI_pixel (a : Word) (row : Fin 32) (col : Fin 64) : (s.setI a).pixel row col = s.pixel row col := rfl

/-! ### `setPc` -/

@[simp] theorem setPc_v (a : Word) : (s.setPc a).v = s.v := rfl
@[simp] theorem setPc_i (a : Word) : (s.setPc a).i = s.i := rfl
@[simp] theorem setPc_pc (a : Word) : (s.setPc a).pc = a := rfl
@[simp] theorem setPc_dt (a : Word) : (s.setPc a).dt = s.dt := rfl
@[simp] theorem setPc_st (a : Word) : (s.setPc a).st = s.st := rfl
@[simp] theorem setPc_stack (a : Word) : (s.setPc a).stack = s.stack := rfl
@[simp] theorem setPc_sp (a : Word) : (s.setPc a).sp = s.sp := rfl
@[simp] theorem setPc_mem (a : Word) : (s.setPc a).mem = s.mem := rfl
@[simp] theorem setPc_fb (a : Word) : (s.setPc a).fb = s.fb := rfl
@[simp] theorem setPc_tone (a : Word) : (s.setPc a).tone = s.tone := rfl
@[simp] theorem setPc_runState (a : Word) : (s.setPc a).runState = s.runState := rfl
@[simp] theorem setPc_faultCode (a : Word) : (s.setPc a).faultCode = s.faultCode := rfl
@[simp] theorem setPc_faultInfo (a : Word) : (s.setPc a).faultInfo = s.faultInfo := rfl
@[simp] theorem setPc_rom (a : Word) : (s.setPc a).rom = s.rom := rfl
@[simp] theorem setPc_keys (a : Word) : (s.setPc a).keys = s.keys := rfl
@[simp] theorem setPc_rnd (a : Word) : (s.setPc a).rnd = s.rnd := rfl
@[simp] theorem setPc_sound (a : Word) : (s.setPc a).sound = s.sound := rfl
@[simp] theorem setPc_schedule (a : Word) : (s.setPc a).schedule = s.schedule := rfl
@[simp] theorem setPc_samples (a : Word) : (s.setPc a).samples = s.samples := rfl
@[simp] theorem setPc_reg (a : Word) (q : RegIdx) : (s.setPc a).reg q = s.reg q := rfl
@[simp] theorem setPc_pixel (a : Word) (row : Fin 32) (col : Fin 64) : (s.setPc a).pixel row col = s.pixel row col := rfl

/-! ### `advance` -/

@[simp] theorem advance_v : (s.advance).v = s.v := rfl
@[simp] theorem advance_i : (s.advance).i = s.i := rfl
@[simp] theorem advance_pc : (s.advance).pc = s.pc + 2 := rfl
@[simp] theorem advance_dt : (s.advance).dt = s.dt := rfl
@[simp] theorem advance_st : (s.advance).st = s.st := rfl
@[simp] theorem advance_stack : (s.advance).stack = s.stack := rfl
@[simp] theorem advance_sp : (s.advance).sp = s.sp := rfl
@[simp] theorem advance_mem : (s.advance).mem = s.mem := rfl
@[simp] theorem advance_fb : (s.advance).fb = s.fb := rfl
@[simp] theorem advance_tone : (s.advance).tone = s.tone := rfl
@[simp] theorem advance_runState : (s.advance).runState = s.runState := rfl
@[simp] theorem advance_faultCode : (s.advance).faultCode = s.faultCode := rfl
@[simp] theorem advance_faultInfo : (s.advance).faultInfo = s.faultInfo := rfl
@[simp] theorem advance_rom : (s.advance).rom = s.rom := rfl
@[simp] theorem advance_keys : (s.advance).keys = s.keys := rfl
@[simp] theorem advance_rnd : (s.advance).rnd = s.rnd := rfl
@[simp] theorem advance_sound : (s.advance).sound = s.sound := rfl
@[simp] theorem advance_schedule : (s.advance).schedule = s.schedule := rfl
@[simp] theorem advance_samples : (s.advance).samples = s.samples := rfl
@[simp] theorem advance_reg (q : RegIdx) : (s.advance).reg q = s.reg q := rfl
@[simp] theorem advance_pixel (row : Fin 32) (col : Fin 64) : (s.advance).pixel row col = s.pixel row col := rfl

/-! ### `skipIf` -/

@[simp] theorem skipIf_v (c : Bool) : (s.skipIf c).v = s.v := rfl
@[simp] theorem skipIf_i (c : Bool) : (s.skipIf c).i = s.i := rfl
@[simp] theorem skipIf_pc (c : Bool) : (s.skipIf c).pc = if c then s.pc + 4 else s.pc + 2 := rfl
@[simp] theorem skipIf_dt (c : Bool) : (s.skipIf c).dt = s.dt := rfl
@[simp] theorem skipIf_st (c : Bool) : (s.skipIf c).st = s.st := rfl
@[simp] theorem skipIf_stack (c : Bool) : (s.skipIf c).stack = s.stack := rfl
@[simp] theorem skipIf_sp (c : Bool) : (s.skipIf c).sp = s.sp := rfl
@[simp] theorem skipIf_mem (c : Bool) : (s.skipIf c).mem = s.mem := rfl
@[simp] theorem skipIf_fb (c : Bool) : (s.skipIf c).fb = s.fb := rfl
@[simp] theorem skipIf_tone (c : Bool) : (s.skipIf c).tone = s.tone := rfl
@[simp] theorem skipIf_runState (c : Bool) : (s.skipIf c).runState = s.runState := rfl
@[simp] theorem skipIf_faultCode (c : Bool) : (s.skipIf c).faultCode = s.faultCode := rfl
@[simp] theorem skipIf_faultInfo (c : Bool) : (s.skipIf c).faultInfo = s.faultInfo := rfl
@[simp] theorem skipIf_rom (c : Bool) : (s.skipIf c).rom = s.rom := rfl
@[simp] theorem skipIf_keys (c : Bool) : (s.skipIf c).keys = s.keys := rfl
@[simp] theorem skipIf_rnd (c : Bool) : (s.skipIf c).rnd = s.rnd := rfl
@[simp] theorem skipIf_sound (c : Bool) : (s.skipIf c).sound = s.sound := rfl
@[simp] theorem skipIf_schedule (c : Bool) : (s.skipIf c).schedule = s.schedule := rfl
@[simp] theorem skipIf_samples (c : Bool) : (s.skipIf c).samples = s.samples := rfl
@[simp] theorem skipIf_reg (c : Bool) (q : RegIdx) : (s.skipIf c).reg q = s.reg q := rfl
@[simp] theorem skipIf_pixel (c : Bool) (row : Fin 32) (col : Fin 64) : (s.skipIf c).pixel row col = s.pixel row col := rfl

/-! ### `setDt` -/

@[simp] theorem setDt_v (b : Byte) : (s.setDt b).v = s.v := rfl
@[simp] theorem setDt_i (b : Byte) : (s.setDt b).i = s.i := rfl
@[simp] theorem setDt_pc (b : Byte) : (s.setDt b).pc = s.pc := rfl
@[simp] theorem setDt_dt (b : Byte) : (s.setDt b).dt = b := rfl
@[simp] theorem setDt_st (b : Byte) : (s.setDt b).st = s.st := rfl
@[simp] theorem setDt_stack (b : Byte) : (s.setDt b).stack = s.stack := rfl
@[simp] theorem setDt_sp (b : Byte) : (s.setDt b).sp = s.sp := rfl
@[simp] theorem setDt_mem (b : Byte) : (s.setDt b).mem = s.mem := rfl
@[simp] theorem setDt_fb (b : Byte) : (s.setDt b).fb = s.fb := rfl
@[simp] theorem setDt_tone (b : Byte) : (s.setDt b).tone = s.tone := rfl
@[simp] theorem setDt_runState (b : Byte) : (s.setDt b).runState = s.runState := rfl
@[simp] theorem setDt_faultCode (b : Byte) : (s.setDt b).faultCode = s.faultCode := rfl
@[simp] theorem setDt_faultInfo (b : Byte) : (s.setDt b).faultInfo = s.faultInfo := rfl
@[simp] theorem setDt_rom (b : Byte) : (s.setDt b).rom = s.rom := rfl
@[simp] theorem setDt_keys (b : Byte) : (s.setDt b).keys = s.keys := rfl
@[simp] theorem setDt_rnd (b : Byte) : (s.setDt b).rnd = s.rnd := rfl
@[simp] theorem setDt_sound (b : Byte) : (s.setDt b).sound = s.sound := rfl
@[simp] theorem setDt_schedule (b : Byte) : (s.setDt b).schedule = s.schedule := rfl
@[simp] theorem setDt_samples (b : Byte) : (s.setDt b).samples = s.samples := rfl
@[simp] theorem setDt_reg (b : Byte) (q : RegIdx) : (s.setDt b).reg q = s.reg q := rfl
@[simp] theorem setDt_pixel (b : Byte) (row : Fin 32) (col : Fin 64) : (s.setDt b).pixel row col = s.pixel row col := rfl

/-! ### `setSt` -/

@[simp] theorem setSt_v (b : Byte) : (s.setSt b).v = s.v := rfl
@[simp] theorem setSt_i (b : Byte) : (s.setSt b).i = s.i := rfl
@[simp] theorem setSt_pc (b : Byte) : (s.setSt b).pc = s.pc := rfl
@[simp] theorem setSt_dt (b : Byte) : (s.setSt b).dt = s.dt := rfl
@[simp] theorem setSt_st (b : Byte) : (s.setSt b).st = b := rfl
@[simp] theorem setSt_stack (b : Byte) : (s.setSt b).stack = s.stack := rfl
@[simp] theorem setSt_sp (b : Byte) : (s.setSt b).sp = s.sp := rfl
@[simp] theorem setSt_mem (b : Byte) : (s.setSt b).mem = s.mem := rfl
@[simp] theorem setSt_fb (b : Byte) : (s.setSt b).fb = s.fb := rfl
@[simp] theorem setSt_tone (b : Byte) : (s.setSt b).tone = s.tone := rfl
@[simp] theorem setSt_runState (b : Byte) : (s.setSt b).runState = s.runState := rfl
@[simp] theorem setSt_faultCode (b : Byte) : (s.setSt b).faultCode = s.faultCode := rfl
@[simp] theorem setSt_faultInfo (b : Byte) : (s.setSt b).faultInfo = s.faultInfo := rfl
@[simp] theorem setSt_rom (b : Byte) : (s.setSt b).rom = s.rom := rfl
@[simp] theorem setSt_keys (b : Byte) : (s.setSt b).keys = s.keys := rfl
@[simp] theorem setSt_rnd (b : Byte) : (s.setSt b).rnd = s.rnd := rfl
@[simp] theorem setSt_sound (b : Byte) : (s.setSt b).sound = s.sound := rfl
@[simp] theorem setSt_schedule (b : Byte) : (s.setSt b).schedule = s.schedule := rfl
@[simp] theorem setSt_samples (b : Byte) : (s.setSt b).samples = s.samples := rfl
@[simp] theorem setSt_reg (b : Byte) (q : RegIdx) : (s.setSt b).reg q = s.reg q := rfl
@[simp] theorem setSt_pixel (b : Byte) (row : Fin 32) (col : Fin 64) : (s.setSt b).pixel row col = s.pixel row col := rfl

/-! ### `setMem` -/

@[simp] theorem setMem_v (m : Memory) : (s.setMem m).v = s.v := rfl
@[simp] theorem setMem_i (m : Memory) : (s.setMem m).i = s.i := rfl
@[simp] theorem setMem_pc (m : Memory) : (s.setMem m).pc = s.pc := rfl
@[simp] theorem setMem_dt (m : Memory) : (s.setMem m).dt = s.dt := rfl
@[simp] theorem setMem_st (m : Memory) : (s.setMem m).st = s.st := rfl
@[simp] theorem setMem_stack (m : Memory) : (s.setMem m).stack = s.stack := rfl
@[simp] theorem setMem_sp (m : Memory) : (s.setMem m).sp = s.sp := rfl
@[simp] theorem setMem_mem (m : Memory) : (s.setMem m).mem = m := rfl
@[simp] theorem setMem_fb (m : Memory) : (s.setMem m).fb = s.fb := rfl
@[simp] theorem setMem_tone (m : Memory) : (s.setMem m).tone = s.tone := rfl
@[simp] theorem setMem_runState (m : Memory) : (s.setMem m).runState = s.runState := rfl
@[simp] theorem setMem_faultCode (m : Memory) : (s.setMem m).faultCode = s.faultCode := rfl
@[simp] theorem setMem_faultInfo (m : Memory) : (s.setMem m).faultInfo = s.faultInfo := rfl
@[simp] theorem setMem_rom (m : Memory) : (s.setMem m).rom = s.rom := rfl
@[simp] theorem setMem_keys (m : Memory) : (s.setMem m).keys = s.keys := rfl
@[simp] theorem setMem_rnd (m : Memory) : (s.setMem m).rnd = s.rnd := rfl
@[simp] theorem setMem_sound (m : Memory) : (s.setMem m).sound = s.sound := rfl
@[simp] theorem setMem_schedule (m : Memory) : (s.setMem m).schedule = s.schedule := rfl
@[simp] theorem setMem_samples (m : Memory) : (s.setMem m).samples = s.samples := rfl
@[simp] theorem setMem_reg (m : Memory) (q : RegIdx) : (s.setMem m).reg q = s.reg q := rfl
@[simp] theorem setMem_pixel (m : Memory) (row : Fin 32) (col : Fin 64) : (s.setMem m).pixel row col = s.pixel row col := rfl

/-! ### `setFb` -/

@[simp] theorem setFb_v (fb : Framebuffer) : (s.setFb fb).v = s.v := rfl
@[simp] theorem setFb_i (fb : Framebuffer) : (s.setFb fb).i = s.i := rfl
@[simp] theorem setFb_pc (fb : Framebuffer) : (s.setFb fb).pc = s.pc := rfl
@[simp] theorem setFb_dt (fb : Framebuffer) : (s.setFb fb).dt = s.dt := rfl
@[simp] theorem setFb_st (fb : Framebuffer) : (s.setFb fb).st = s.st := rfl
@[simp] theorem setFb_stack (fb : Framebuffer) : (s.setFb fb).stack = s.stack := rfl
@[simp] theorem setFb_sp (fb : Framebuffer) : (s.setFb fb).sp = s.sp := rfl
@[simp] theorem setFb_mem (fb : Framebuffer) : (s.setFb fb).mem = s.mem := rfl
@[simp] theorem setFb_fb (fb : Framebuffer) : (s.setFb fb).fb = fb := rfl
@[simp] theorem setFb_tone (fb : Framebuffer) : (s.setFb fb).tone = s.tone := rfl
@[simp] theorem setFb_runState (fb : Framebuffer) : (s.setFb fb).runState = s.runState := rfl
@[simp] theorem setFb_faultCode (fb : Framebuffer) : (s.setFb fb).faultCode = s.faultCode := rfl
@[simp] theorem setFb_faultInfo (fb : Framebuffer) : (s.setFb fb).faultInfo = s.faultInfo := rfl
@[simp] theorem setFb_rom (fb : Framebuffer) : (s.setFb fb).rom = s.rom := rfl
@[simp] theorem setFb_keys (fb : Framebuffer) : (s.setFb fb).keys = s.keys := rfl
@[simp] theorem setFb_rnd (fb : Framebuffer) : (s.setFb fb).rnd = s.rnd := rfl
@[simp] theorem setFb_sound (fb : Framebuffer) : (s.setFb fb).sound = s.sound := rfl
@[simp] theorem setFb_schedule (fb : Framebuffer) : (s.setFb fb).schedule = s.schedule := rfl
@[simp] theorem setFb_samples (fb : Framebuffer) : (s.setFb fb).samples = s.samples := rfl
@[simp] theorem setFb_reg (fb : Framebuffer) (q : RegIdx) : (s.setFb fb).reg q = s.reg q := rfl

/-! ### `setStack` -/

@[simp] theorem setStack_v (e : Vector Word 16) (d : Fin 17) : (s.setStack e d).v = s.v := rfl
@[simp] theorem setStack_i (e : Vector Word 16) (d : Fin 17) : (s.setStack e d).i = s.i := rfl
@[simp] theorem setStack_pc (e : Vector Word 16) (d : Fin 17) : (s.setStack e d).pc = s.pc := rfl
@[simp] theorem setStack_dt (e : Vector Word 16) (d : Fin 17) : (s.setStack e d).dt = s.dt := rfl
@[simp] theorem setStack_st (e : Vector Word 16) (d : Fin 17) : (s.setStack e d).st = s.st := rfl
@[simp] theorem setStack_stack (e : Vector Word 16) (d : Fin 17) : (s.setStack e d).stack = e := rfl
@[simp] theorem setStack_sp (e : Vector Word 16) (d : Fin 17) : (s.setStack e d).sp = d := rfl
@[simp] theorem setStack_mem (e : Vector Word 16) (d : Fin 17) : (s.setStack e d).mem = s.mem := rfl
@[simp] theorem setStack_fb (e : Vector Word 16) (d : Fin 17) : (s.setStack e d).fb = s.fb := rfl
@[simp] theorem setStack_tone (e : Vector Word 16) (d : Fin 17) : (s.setStack e d).tone = s.tone := rfl
@[simp] theorem setStack_runState (e : Vector Word 16) (d : Fin 17) : (s.setStack e d).runState = s.runState := rfl
@[simp] theorem setStack_faultCode (e : Vector Word 16) (d : Fin 17) : (s.setStack e d).faultCode = s.faultCode := rfl
@[simp] theorem setStack_faultInfo (e : Vector Word 16) (d : Fin 17) : (s.setStack e d).faultInfo = s.faultInfo := rfl
@[simp] theorem setStack_rom (e : Vector Word 16) (d : Fin 17) : (s.setStack e d).rom = s.rom := rfl
@[simp] theorem setStack_keys (e : Vector Word 16) (d : Fin 17) : (s.setStack e d).keys = s.keys := rfl
@[simp] theorem setStack_rnd (e : Vector Word 16) (d : Fin 17) : (s.setStack e d).rnd = s.rnd := rfl
@[simp] theorem setStack_sound (e : Vector Word 16) (d : Fin 17) : (s.setStack e d).sound = s.sound := rfl
@[simp] theorem setStack_schedule (e : Vector Word 16) (d : Fin 17) : (s.setStack e d).schedule = s.schedule := rfl
@[simp] theorem setStack_samples (e : Vector Word 16) (d : Fin 17) : (s.setStack e d).samples = s.samples := rfl
@[simp] theorem setStack_reg (e : Vector Word 16) (d : Fin 17) (q : RegIdx) : (s.setStack e d).reg q = s.reg q := rfl
@[simp] theorem setStack_pixel (e : Vector Word 16) (d : Fin 17) (row : Fin 32) (col : Fin 64) : (s.setStack e d).pixel row col = s.pixel row col := rfl

/-! ### `setSchedule` -/

@[simp] theorem setSchedule_v (rest : List HostEvent) : (s.setSchedule rest).v = s.v := rfl
@[simp] theorem setSchedule_i (rest : List HostEvent) : (s.setSchedule rest).i = s.i := rfl
@[simp] theorem setSchedule_pc (rest : List HostEvent) : (s.setSchedule rest).pc = s.pc := rfl
@[simp] theorem setSchedule_dt (rest : List HostEvent) : (s.setSchedule rest).dt = s.dt := rfl
@[simp] theorem setSchedule_st (rest : List HostEvent) : (s.setSchedule rest).st = s.st := rfl
@[simp] theorem setSchedule_stack (rest : List HostEvent) : (s.setSchedule rest).stack = s.stack := rfl
@[simp] theorem setSchedule_sp (rest : List HostEvent) : (s.setSchedule rest).sp = s.sp := rfl
@[simp] theorem setSchedule_mem (rest : List HostEvent) : (s.setSchedule rest).mem = s.mem := rfl
@[simp] theorem setSchedule_fb (rest : List HostEvent) : (s.setSchedule rest).fb = s.fb := rfl
@[simp] theorem setSchedule_tone (rest : List HostEvent) : (s.setSchedule rest).tone = s.tone := rfl
@[simp] theorem setSchedule_runState (rest : List HostEvent) : (s.setSchedule rest).runState = s.runState := rfl
@[simp] theorem setSchedule_faultCode (rest : List HostEvent) : (s.setSchedule rest).faultCode = s.faultCode := rfl
@[simp] theorem setSchedule_faultInfo (rest : List HostEvent) : (s.setSchedule rest).faultInfo = s.faultInfo := rfl
@[simp] theorem setSchedule_rom (rest : List HostEvent) : (s.setSchedule rest).rom = s.rom := rfl
@[simp] theorem setSchedule_keys (rest : List HostEvent) : (s.setSchedule rest).keys = s.keys := rfl
@[simp] theorem setSchedule_rnd (rest : List HostEvent) : (s.setSchedule rest).rnd = s.rnd := rfl
@[simp] theorem setSchedule_sound (rest : List HostEvent) : (s.setSchedule rest).sound = s.sound := rfl
@[simp] theorem setSchedule_schedule (rest : List HostEvent) : (s.setSchedule rest).schedule = rest := rfl
@[simp] theorem setSchedule_samples (rest : List HostEvent) : (s.setSchedule rest).samples = s.samples := rfl
@[simp] theorem setSchedule_reg (rest : List HostEvent) (q : RegIdx) : (s.setSchedule rest).reg q = s.reg q := rfl
@[simp] theorem setSchedule_pixel (rest : List HostEvent) (row : Fin 32) (col : Fin 64) : (s.setSchedule rest).pixel row col = s.pixel row col := rfl

/-! ### `raiseFatal` -/

@[simp] theorem raiseFatal_v (f : Fatal) : (s.raiseFatal f).v = s.v := rfl
@[simp] theorem raiseFatal_i (f : Fatal) : (s.raiseFatal f).i = s.i := rfl
@[simp] theorem raiseFatal_pc (f : Fatal) : (s.raiseFatal f).pc = s.pc := rfl
@[simp] theorem raiseFatal_dt (f : Fatal) : (s.raiseFatal f).dt = s.dt := rfl
@[simp] theorem raiseFatal_st (f : Fatal) : (s.raiseFatal f).st = s.st := rfl
@[simp] theorem raiseFatal_stack (f : Fatal) : (s.raiseFatal f).stack = s.stack := rfl
@[simp] theorem raiseFatal_sp (f : Fatal) : (s.raiseFatal f).sp = s.sp := rfl
@[simp] theorem raiseFatal_mem (f : Fatal) : (s.raiseFatal f).mem = s.mem := rfl
@[simp] theorem raiseFatal_fb (f : Fatal) : (s.raiseFatal f).fb = s.fb := rfl
@[simp] theorem raiseFatal_tone (f : Fatal) : (s.raiseFatal f).tone = s.tone := rfl
@[simp] theorem raiseFatal_runState (f : Fatal) : (s.raiseFatal f).runState = .faulted := rfl
@[simp] theorem raiseFatal_faultCode (f : Fatal) : (s.raiseFatal f).faultCode = f.code.number := rfl
@[simp] theorem raiseFatal_faultInfo (f : Fatal) : (s.raiseFatal f).faultInfo = f.info := rfl
@[simp] theorem raiseFatal_rom (f : Fatal) : (s.raiseFatal f).rom = s.rom := rfl
@[simp] theorem raiseFatal_keys (f : Fatal) : (s.raiseFatal f).keys = s.keys := rfl
@[simp] theorem raiseFatal_rnd (f : Fatal) : (s.raiseFatal f).rnd = s.rnd := rfl
@[simp] theorem raiseFatal_sound (f : Fatal) : (s.raiseFatal f).sound = s.sound := rfl
@[simp] theorem raiseFatal_schedule (f : Fatal) : (s.raiseFatal f).schedule = s.schedule := rfl
@[simp] theorem raiseFatal_samples (f : Fatal) : (s.raiseFatal f).samples = s.samples := rfl
@[simp] theorem raiseFatal_reg (f : Fatal) (q : RegIdx) : (s.raiseFatal f).reg q = s.reg q := rfl
@[simp] theorem raiseFatal_pixel (f : Fatal) (row : Fin 32) (col : Fin 64) : (s.raiseFatal f).pixel row col = s.pixel row col := rfl

/-! ### `clearFault` -/

@[simp] theorem clearFault_v : (s.clearFault).v = s.v := rfl
@[simp] theorem clearFault_i : (s.clearFault).i = s.i := rfl
@[simp] theorem clearFault_pc : (s.clearFault).pc = s.pc := rfl
@[simp] theorem clearFault_dt : (s.clearFault).dt = s.dt := rfl
@[simp] theorem clearFault_st : (s.clearFault).st = s.st := rfl
@[simp] theorem clearFault_stack : (s.clearFault).stack = s.stack := rfl
@[simp] theorem clearFault_sp : (s.clearFault).sp = s.sp := rfl
@[simp] theorem clearFault_mem : (s.clearFault).mem = s.mem := rfl
@[simp] theorem clearFault_fb : (s.clearFault).fb = s.fb := rfl
@[simp] theorem clearFault_tone : (s.clearFault).tone = s.tone := rfl
@[simp] theorem clearFault_runState : (s.clearFault).runState = .running := rfl
@[simp] theorem clearFault_faultCode : (s.clearFault).faultCode = 0 := rfl
@[simp] theorem clearFault_faultInfo : (s.clearFault).faultInfo = 0 := rfl
@[simp] theorem clearFault_rom : (s.clearFault).rom = s.rom := rfl
@[simp] theorem clearFault_keys : (s.clearFault).keys = s.keys := rfl
@[simp] theorem clearFault_rnd : (s.clearFault).rnd = s.rnd := rfl
@[simp] theorem clearFault_sound : (s.clearFault).sound = s.sound := rfl
@[simp] theorem clearFault_schedule : (s.clearFault).schedule = s.schedule := rfl
@[simp] theorem clearFault_samples : (s.clearFault).samples = s.samples := rfl
@[simp] theorem clearFault_reg (q : RegIdx) : (s.clearFault).reg q = s.reg q := rfl
@[simp] theorem clearFault_pixel (row : Fin 32) (col : Fin 64) : (s.clearFault).pixel row col = s.pixel row col := rfl

/-! ### `samplePorts` -/

@[simp] theorem samplePorts_v (i : Instr) (k : Word) (r : Byte) : (s.samplePorts i k r).v = s.v := rfl
@[simp] theorem samplePorts_i (i : Instr) (k : Word) (r : Byte) : (s.samplePorts i k r).i = s.i := rfl
@[simp] theorem samplePorts_pc (i : Instr) (k : Word) (r : Byte) : (s.samplePorts i k r).pc = s.pc := rfl
@[simp] theorem samplePorts_dt (i : Instr) (k : Word) (r : Byte) : (s.samplePorts i k r).dt = s.dt := rfl
@[simp] theorem samplePorts_st (i : Instr) (k : Word) (r : Byte) : (s.samplePorts i k r).st = s.st := rfl
@[simp] theorem samplePorts_stack (i : Instr) (k : Word) (r : Byte) : (s.samplePorts i k r).stack = s.stack := rfl
@[simp] theorem samplePorts_sp (i : Instr) (k : Word) (r : Byte) : (s.samplePorts i k r).sp = s.sp := rfl
@[simp] theorem samplePorts_mem (i : Instr) (k : Word) (r : Byte) : (s.samplePorts i k r).mem = s.mem := rfl
@[simp] theorem samplePorts_fb (i : Instr) (k : Word) (r : Byte) : (s.samplePorts i k r).fb = s.fb := rfl
@[simp] theorem samplePorts_tone (i : Instr) (k : Word) (r : Byte) : (s.samplePorts i k r).tone = s.tone := rfl
@[simp] theorem samplePorts_runState (i : Instr) (k : Word) (r : Byte) : (s.samplePorts i k r).runState = s.runState := rfl
@[simp] theorem samplePorts_faultCode (i : Instr) (k : Word) (r : Byte) : (s.samplePorts i k r).faultCode = s.faultCode := rfl
@[simp] theorem samplePorts_faultInfo (i : Instr) (k : Word) (r : Byte) : (s.samplePorts i k r).faultInfo = s.faultInfo := rfl
@[simp] theorem samplePorts_rom (i : Instr) (k : Word) (r : Byte) : (s.samplePorts i k r).rom = s.rom := rfl
@[simp] theorem samplePorts_keys (i : Instr) (k : Word) (r : Byte) : (s.samplePorts i k r).keys = if readsKeys i then k else s.keys := rfl
@[simp] theorem samplePorts_rnd (i : Instr) (k : Word) (r : Byte) : (s.samplePorts i k r).rnd = if readsRnd i then r else s.rnd := rfl
@[simp] theorem samplePorts_sound (i : Instr) (k : Word) (r : Byte) : (s.samplePorts i k r).sound = s.sound := rfl
@[simp] theorem samplePorts_schedule (i : Instr) (k : Word) (r : Byte) : (s.samplePorts i k r).schedule = s.schedule := rfl
@[simp] theorem samplePorts_samples (i : Instr) (k : Word) (r : Byte) :
    (s.samplePorts i k r).samples = if readsKeys i || readsRnd i then s.samples + 1 else s.samples := rfl
@[simp] theorem samplePorts_reg (i : Instr) (k : Word) (r : Byte) (q : RegIdx) : (s.samplePorts i k r).reg q = s.reg q := rfl
@[simp] theorem samplePorts_pixel (i : Instr) (k : Word) (r : Byte) (row : Fin 32) (col : Fin 64) : (s.samplePorts i k r).pixel row col = s.pixel row col := rfl

/-- A step whose instruction reads neither port consumes nothing (R36, R127). -/
theorem samplePorts_eq_self {i : Instr} (hk : readsKeys i = false) (hr : readsRnd i = false) (k : Word) (r : Byte) :
    s.samplePorts i k r = s := by simp [State.samplePorts, hk, hr]

/-! ### Registers after a write -/

@[simp] theorem setReg_reg_same (r : RegIdx) (b : Byte) : (s.setReg r b).reg r = b := by
  simp [State.reg, State.setReg]

theorem setReg_reg (r q : RegIdx) (b : Byte) : (s.setReg r b).reg q = if r = q then b else s.reg q := by
  simp only [State.reg, State.setReg, Fin.getElem_fin, Vector.getElem_set, Fin.ext_iff]

@[simp] theorem setReg_reg_other {r q : RegIdx} (b : Byte) (h : q ≠ r) : (s.setReg r b).reg q = s.reg q := by
  rw [setReg_reg, if_neg (Ne.symm h)]

@[simp] theorem setLowRegs_reg (bytes : List Byte) (q : RegIdx) :
    (s.setLowRegs bytes).reg q = bytes.getD q.val (s.reg q) := by
  simp [State.reg, State.setLowRegs]

@[simp] theorem setFb_pixel (fb : Framebuffer) (row : Fin 32) (col : Fin 64) :
    (s.setFb fb).pixel row col = fb[row][col] := rfl

@[simp] theorem clearFb_pixel (row : Fin 32) (col : Fin 64) : clearFb[row][col] = false := by
  simp [clearFb]

end Sys2Proof.Machine
end

