-- ==== Sys2Proof/Laws/Memory.lean ====
section
/-! SUPPORT. Memory: read after write, and that every memory operation keeps the canonical form. -/

namespace Sys2Proof.Machine

/-! ### One byte -/

@[simp] theorem read_nil (a : Nat) : Memory.read [] a = unlisted a := rfl

/-- A write leaves every other address alone, whatever the list. -/
theorem read_write_other (m : Memory) {a q : Nat} (b : Byte) (h : q ≠ a) : (m.write a b).read q = m.read q := by
  induction m with
  | nil => simp only [Memory.write]; split <;> simp [Memory.read, Ne.symm h]
  | cons c m ih =>
    obtain ⟨k, c⟩ := c
    simp only [Memory.write]
    by_cases hk : a < k
    · simp only [hk, if_true]; split <;> simp [Memory.read, Ne.symm h]
    · by_cases he : a = k
      · subst he; simp only [lt_irrefl, if_false, if_true]; split <;> simp [Memory.read, Ne.symm h]
      · simp only [hk, he, if_false, Memory.read, ih]

/-- Below the first listed address everything is unlisted. -/
theorem read_of_lt_all (m : Memory) (a : Nat) (h : ∀ c ∈ m, a < c.1) : m.read a = unlisted a := by
  induction m with
  | nil => rfl
  | cons c m ih =>
    obtain ⟨k, c⟩ := c
    have : k ≠ a := Nat.ne_of_gt (h (k, c) (by simp))
    simp only [Memory.read, this, if_false]
    exact ih fun d hd => h d (by simp [hd])

/-- A canonical memory gives back what was written. -/
theorem read_write_same (m : Memory) (a : Nat) (b : Byte) (h : m.wf) : (m.write a b).read a = b := by
  induction m with
  | nil => simp only [Memory.write]; split <;> simp_all [Memory.read]
  | cons c m ih =>
    obtain ⟨k, c⟩ := c
    obtain ⟨hs, hm⟩ := h
    rw [List.pairwise_cons] at hs
    simp only [Memory.write]
    by_cases hk : a < k
    · have low : Memory.read ((k, c) :: m) a = unlisted a := by
        refine read_of_lt_all _ _ fun d hd => ?_
        rcases List.mem_cons.1 hd with rfl | hd
        · exact hk
        · exact hk.trans (hs.1 d hd)
      simp only [hk, if_true]; split
      · rename_i hb; rw [low, hb]
      · simp [Memory.read]
    · by_cases he : a = k
      · subst he
        simp only [lt_irrefl, if_false, if_true]; split
        · rename_i hb; rw [read_of_lt_all m a fun d hd => hs.1 d hd, hb]
        · simp [Memory.read]
      · simp only [hk, he, if_false, Memory.read, Ne.symm he]
        exact ih ⟨hs.2, fun d hd => hm d (by simp [hd])⟩

/-- Where a written memory has its entries: at the written address or where there was one. -/
theorem mem_write {m : Memory} {a : Nat} {b : Byte} {c : Host.Cell} (h : c ∈ m.write a b) :
    (c = (a, b) ∧ b ≠ unlisted a) ∨ c ∈ m := by
  induction m with
  | nil =>
    simp only [Memory.write] at h
    split at h <;> simp_all
  | cons d m ih =>
    obtain ⟨k, d⟩ := d
    simp only [Memory.write] at h
    split at h
    · split at h <;> simp_all
    · split at h
      · rename_i he
        subst he
        split at h
        · exact .inr (List.mem_cons_of_mem _ h)
        · rename_i hb
          rcases List.mem_cons.1 h with h | h
          · exact .inl ⟨h, hb⟩
          · exact .inr (List.mem_cons_of_mem _ h)
      · simp only [List.mem_cons] at h ⊢
        rcases h with h | h
        · exact .inr (.inl h)
        · rcases ih h with h | h
          · exact .inl h
          · exact .inr (.inr h)

/-- Writing an existing address keeps the canonical form. -/
theorem write_wf {m : Memory} {a : Nat} (b : Byte) (ha : a < Config.memSize) (h : m.wf) : (m.write a b).wf := by
  refine ⟨?_, fun c hc => ?_⟩
  · replace h := h.1
    induction m with
    | nil => simp only [Memory.write]; split <;> simp
    | cons d m ih =>
      obtain ⟨k, d⟩ := d
      rw [List.pairwise_cons] at h
      simp only [Memory.write]
      by_cases hk : a < k
      · simp only [hk, if_true]; split
        · exact List.pairwise_cons.2 h
        · refine List.pairwise_cons.2 ⟨fun c hc => ?_, List.pairwise_cons.2 h⟩
          rcases List.mem_cons.1 hc with rfl | hc
          · exact hk
          · exact hk.trans (h.1 c hc)
      · by_cases he : a = k
        · subst he
          simp only [lt_irrefl, if_false, if_true]; split
          · exact h.2
          · exact List.pairwise_cons.2 ⟨fun c hc => h.1 c hc, h.2⟩
        · simp only [hk, he, if_false]
          refine List.pairwise_cons.2 ⟨fun c hc => ?_, ih h.2⟩
          rcases mem_write hc with ⟨rfl, -⟩ | hc
          · exact Nat.lt_of_le_of_ne (Nat.le_of_not_lt hk) (Ne.symm he)
          · exact h.1 c hc
  · rcases mem_write hc with ⟨rfl, hb⟩ | hc
    · exact ⟨ha, hb⟩
    · exact h.2 c hc

/-! ### Several bytes -/

@[simp] theorem length_bytesAt (m : Memory) (base n : Nat) : (m.bytesAt base n).length = n := by
  induction n generalizing base with
  | zero => rfl
  | succ n ih => simp [Memory.bytesAt, ih]

theorem getElem?_bytesAt (m : Memory) (base n k : Nat) (h : k < n) :
    (m.bytesAt base n)[k]? = some (m.read (base + k)) := by
  induction n generalizing base k with
  | zero => omega
  | succ n ih =>
    cases k with
    | zero => simp [Memory.bytesAt]
    | succ k => simp [Memory.bytesAt, ih (base + 1) k (by omega), Nat.add_assoc, Nat.add_comm 1 k]

theorem getD_bytesAt (m : Memory) (base n k : Nat) (d : Byte) (h : k < n) :
    (m.bytesAt base n).getD k d = m.read (base + k) := by
  simp [List.getD, getElem?_bytesAt m base n k h]

theorem writeBytes_wf {m : Memory} (base : Nat) (bytes : List Byte)
    (hb : base + bytes.length ≤ Config.memSize) (h : m.wf) : (m.writeBytes base bytes).wf := by
  induction bytes generalizing m base with
  | nil => exact h
  | cons b bytes ih =>
    simp only [List.length_cons] at hb
    exact ih (base + 1) (by omega) (write_wf b (by omega) h)

theorem read_writeBytes_outside (m : Memory) (base q : Nat) (bytes : List Byte)
    (h : q < base ∨ base + bytes.length ≤ q) : (m.writeBytes base bytes).read q = m.read q := by
  induction bytes generalizing m base with
  | nil => rfl
  | cons b bytes ih =>
    simp only [List.length_cons] at h
    rw [Memory.writeBytes, ih _ (base + 1) (by omega), read_write_other m b (by omega)]

theorem read_writeBytes_inside (m : Memory) (base k : Nat) (bytes : List Byte) (hk : k < bytes.length)
    (hb : base + bytes.length ≤ Config.memSize) (h : m.wf) : (m.writeBytes base bytes).read (base + k) = bytes[k] := by
  induction bytes generalizing m base k with
  | nil => simp at hk
  | cons b bytes ih =>
    simp only [List.length_cons] at hk hb
    cases k with
    | zero =>
      rw [Memory.writeBytes, read_writeBytes_outside _ _ _ _ (by omega)]
      exact read_write_same m base b h
    | succ k =>
      have := ih (m.write base b) (base + 1) k (by omega) (by omega) (write_wf b (by omega) h)
      rw [Memory.writeBytes, show base + (k + 1) = base + 1 + k by omega, this]
      rfl

end Sys2Proof.Machine
end

