-- ==== Sys2Proof/Laws/Ops.lean ====
section
/-! SUPPORT. What each shared operation can do, said once: fetch, the block accesses, push and pop, and `orRaise`. -/

namespace Sys2Proof.Machine

/-- Ending an instruction always answers a next state: the writes, or the fault record alone. -/
theorem orRaise_cases {α : Type} {r : Except Fatal α} {s t : State} {k : α → State} (h : orRaise r s k = .next t) :
    (∃ a, r = .ok a ∧ t = k a) ∨ (∃ f, r = .error f ∧ t = s.raiseFatal f) := by
  cases r with
  | ok a => exact .inl ⟨a, rfl, by simpa [orRaise] using h.symm⟩
  | error f => exact .inr ⟨f, rfl, by simpa [orRaise] using h.symm⟩

theorem inRange_iff (base n : Nat) : inRange base n = true ↔ n = 0 ∨ base + n ≤ 0x1000 := by
  simp only [inRange, Bool.or_eq_true, beq_iff_eq, decide_eq_true_eq]
  rfl

theorem readBlock_cases (s : State) (base n : Nat) :
    ((n = 0 ∨ base + n ≤ 0x1000) ∧ readBlock s base n = .ok (s.mem.bytesAt base n)) ∨
    ((0 < n ∧ 0x1000 < base + n) ∧ readBlock s base n = .error (memFatal base)) := by
  by_cases h : inRange base n
  · exact .inl ⟨(inRange_iff base n).1 h, by simp [readBlock, h]⟩
  · have := mt (inRange_iff base n).2 h
    exact .inr ⟨by omega, by simp [readBlock, h]⟩

theorem writeBlock_cases (s : State) (base : Nat) (bytes : List Byte) :
    ((bytes.length = 0 ∨ base + bytes.length ≤ 0x1000) ∧
      writeBlock s base bytes = .ok (s.setMem (s.mem.writeBytes base bytes))) ∨
    ((0 < bytes.length ∧ 0x1000 < base + bytes.length) ∧ writeBlock s base bytes = .error (memFatal base)) := by
  by_cases h : inRange base bytes.length
  · exact .inl ⟨(inRange_iff base _).1 h, by simp [writeBlock, h]⟩
  · have := mt (inRange_iff base bytes.length).2 h
    exact .inr ⟨by omega, by simp [writeBlock, h]⟩

theorem fetch16_cases (s : State) :
    (s.pc.toNat ≤ 0xFFE ∧
      fetch16 s = .ok (wordOfBytes (s.mem.read s.pc.toNat) (s.mem.read (s.pc.toNat + 1)))) ∨
    (0xFFE < s.pc.toNat ∧ fetch16 s = .error ⟨.pcOor, s.pc⟩) := by
  by_cases h : s.pc.toNat > 0xFFE
  · exact .inr ⟨h, by simp [fetch16, h]⟩
  · exact .inl ⟨by omega, by simp [fetch16, h]⟩

theorem push_cases (s : State) (v : Word) :
    (∃ h : s.sp.val < 16, push s v = .ok (s.setStack (s.stack.set s.sp.val v) ⟨s.sp.val + 1, by omega⟩)) ∨
    (s.sp = 16 ∧ push s v = .error ⟨.stackOverflow, 16⟩) := by
  by_cases h : s.sp.val < 16
  · exact .inl ⟨h, by simp [push, h]⟩
  · have : s.sp = 16 := Fin.ext (by have := s.sp.isLt; simp; omega)
    exact .inr ⟨this, by simp [push, this]⟩

theorem pop_cases (s : State) :
    (∃ h : 0 < s.sp.val, pop s =
      .ok (s.stack[s.sp.val - 1], s.setStack s.stack ⟨s.sp.val - 1, by omega⟩)) ∨
    (s.sp = 0 ∧ pop s = .error ⟨.stackUnderflow, 0⟩) := by
  by_cases h : 0 < s.sp.val
  · exact .inl ⟨h, by simp [pop, h]⟩
  · have : s.sp = 0 := Fin.ext (by simp; omega)
    exact .inr ⟨this, by simp [pop, this]⟩

@[simp] theorem length_lowRegs (s : State) (x : RegIdx) : (s.lowRegs x).length = x.val + 1 := by
  simp [State.lowRegs]

theorem getElem_lowRegs (s : State) (x : RegIdx) (k : Nat) (h : k < (s.lowRegs x).length) :
    (s.lowRegs x)[k] = s.reg ⟨k, by have := length_lowRegs s x; omega⟩ := by
  simp [State.lowRegs, State.reg]

@[simp] theorem length_bcdDigits (b : Byte) : (bcdDigits b).length = 3 := rfl

/-! ### The sprite blitter, one pixel at a time -/

theorem toggle_pixel (d : Blit) (row r : Fin 32) (col c : Fin 64) :
    (d.toggle row col).fb[r][c] = (d.fb[r][c] ^^ (decide (row = r) && decide (col = c))) := by
  simp only [Blit.toggle, Fin.getElem_fin, Vector.getElem_set]
  by_cases hr : row = r
  · subst hr
    by_cases hc : col = c
    · subst hc; simp
    · have : col.val ≠ c.val := fun h => hc (Fin.ext h)
      simp [hc, this]
  · have : row.val ≠ r.val := fun h => hr (Fin.ext h)
    simp [hr, this]

@[simp] theorem toggle_hit (d : Blit) (row : Fin 32) (col : Fin 64) :
    (d.toggle row col).hit = (d.hit || d.fb[row][col]) := rfl

end Sys2Proof.Machine
end

