-- ==== Sys2Proof/Laws/Operands.lean ====
section
/-! SUPPORT. What each operand form, flag and helper computes, as numbers. -/

namespace Sys2Proof.Machine

/-! ### Operand forms -/

theorem absAddr_toNat (nnn : Addr12) : (absAddr nnn).toNat = nnn.toNat := by
  have := nnn.isLt
  simp [absAddr]; omega

theorem zext16_toNat (b : Byte) : (zext16 b).toNat = b.toNat := by
  have := b.isLt
  simp [zext16]; omega

theorem glyphAddr_toNat (b : Byte) : (glyphAddr b).toNat = b.toNat * 5 := by
  have := b.isLt
  simp [glyphAddr, zext16]; omega

theorem ea_zero_add (s : State) (k : Nat) : ea s 0 + k = ea s k := by simp [ea]

theorem wordOfBytes_toNat (hi lo : Byte) : (wordOfBytes hi lo).toNat = 256 * hi.toNat + lo.toNat := by
  have := lo.isLt
  simp only [wordOfBytes, BitVec.toNat_append]
  rw [← Nat.shiftLeft_add_eq_or_of_lt (by omega), Nat.shiftLeft_eq]; omega

/-- No key is found exactly when no key is down. -/
theorem leastKey_eq_none (keys : Word) : leastKey keys = none ↔ keys = 0 := by
  refine ⟨fun h => ?_, fun h => by simp [leastKey, keyDown, h]⟩
  simp only [leastKey, keyDown, List.find?_eq_none, List.mem_range, Bool.not_eq_true] at h
  ext i hi
  simpa [BitVec.getLsbD_eq_getElem hi] using h i hi

/-- The key found is down, and no lower one is. -/
theorem leastKey_eq_some (keys : Word) (k : Nat) :
    leastKey keys = some k ↔ k < 16 ∧ keys.getLsbD k = true ∧ ∀ j < k, keys.getLsbD j = false := by
  simp [leastKey, keyDown, List.find?_range_eq_some]
  tauto

/-! ### Flags -/

theorem carryFlag_eq (a b : Byte) : carryFlag a b = if 255 < a.toNat + b.toNat then 1 else 0 := by
  have ha := a.isLt; have hb := b.isLt
  have : (a.zeroExtend 9 + b.zeroExtend 9).getLsbD 8 = decide (255 < a.toNat + b.toNat) := by
    rw [BitVec.getLsbD, Nat.testBit, BitVec.toNat_add]
    simp [Nat.shiftRight_eq_div_pow, Nat.mod_eq_of_lt (show a.toNat < 512 by omega),
      Nat.mod_eq_of_lt (show b.toNat < 512 by omega), Nat.mod_eq_of_lt (show a.toNat + b.toNat < 512 by omega)]
    by_cases h : 255 < a.toNat + b.toNat <;> simp [h] <;> omega
  rw [carryFlag, flagByte, this]; simp

theorem greaterFlag_eq (a b : Byte) : greaterFlag a b = if b.toNat < a.toNat then 1 else 0 := by
  simp [greaterFlag, flagByte]

theorem shrFlag_toNat (a : Byte) : (shrFlag a).toNat = a.toNat % 2 := by
  simp [shrFlag, flagByte, BitVec.getLsbD, Nat.testBit_zero]
  split <;> simp <;> omega

theorem shlFlag_toNat (a : Byte) : (shlFlag a).toNat = a.toNat / 128 := by
  have := a.isLt
  simp [shlFlag, flagByte, BitVec.getLsbD, Nat.testBit, Nat.shiftRight_eq_div_pow]
  split <;> simp <;> omega

/-! ### Timers, the font, block accesses -/

theorem decTimer_toNat (b : Byte) : (decTimer b).toNat = b.toNat - 1 := by
  simp only [decTimer]; split
  · simp [*]
  · have : b.toNat ≠ 0 := fun h => ‹¬ b = 0› (BitVec.eq_of_toNat_eq h)
    simp; omega

@[simp] theorem length_font : Config.font.length = 80 := rfl

theorem readBlock_ok {s : State} {base n : Nat} (h : inRange base n = true) :
    readBlock s base n = .ok (s.mem.bytesAt base n) := by simp [readBlock, h]

theorem readBlock_error {s : State} {base n : Nat} (h : ¬ inRange base n = true) :
    readBlock s base n = .error (memFatal base) := by simp [readBlock, h]

theorem writeBlock_ok {s : State} {base : Nat} {bytes : List Byte} (h : inRange base bytes.length = true) :
    writeBlock s base bytes = .ok (s.setMem (s.mem.writeBytes base bytes)) := by simp [writeBlock, h]

theorem writeBlock_error {s : State} {base : Nat} {bytes : List Byte} (h : ¬ inRange base bytes.length = true) :
    writeBlock s base bytes = .error (memFatal base) := by simp [writeBlock, h]

/-! ### One sprite pixel -/

theorem plot_pixel (cx cy : Nat) (b : Byte) (r : Nat) (d : Blit) (c : Nat) (row : Fin 32) (col : Fin 64) :
    (plot cx cy b r d c).fb[row][col] =
      (d.fb[row][col] ^^ (b.getLsbD (7 - c) && (decide (wrapRow cy r = row) && decide (wrapCol cx c = col)))) := by
  simp only [plot]; split
  · rw [toggle_pixel]; simp [*]
  · simp [*]

theorem plot_hit (cx cy : Nat) (b : Byte) (r : Nat) (d : Blit) (c : Nat) :
    (plot cx cy b r d c).hit = (d.hit || (b.getLsbD (7 - c) && d.fb[wrapRow cy r][wrapCol cx c])) := by
  simp only [plot]; split
  · rw [toggle_hit]; simp [*]
  · simp [*]

end Sys2Proof.Machine
end

