-- ==== Sys2Proof/Laws/PerInstr.lean ====
section
/-! SUPPORT. Per instruction: its encoded word selects its own row of the opcode map (R101, R102). -/

namespace Sys2Proof.Laws.EncodesRow

/-- The word of an instruction selects the instruction's row. -/
def Statement (i : Instr) : Prop := selects (rowOf i).1 (rowOf i).2 (encode i)

theorem cls : Statement .cls := by unfold Statement; decide
theorem ret : Statement .ret := by unfold Statement; decide
theorem jp (nnn : Addr12) : Statement (.jp nnn) :=
  formatNNN_selects 0x1 nnn (mat := 0x1000) (by decide) rfl (by decide)
theorem call (nnn : Addr12) : Statement (.call nnn) :=
  formatNNN_selects 0x2 nnn (mat := 0x2000) (by decide) rfl (by decide)
theorem seByte (x : RegIdx) (kk : Byte) : Statement (.seByte x kk) :=
  formatXKK_selects 0x3 x kk (mat := 0x3000) (by decide) rfl (by decide)
theorem sneByte (x : RegIdx) (kk : Byte) : Statement (.sneByte x kk) :=
  formatXKK_selects 0x4 x kk (mat := 0x4000) (by decide) rfl (by decide)
theorem seReg (x y : RegIdx) : Statement (.seReg x y) :=
  formatXYN_selects 0x5 x y 0 (mat := 0x5000) (by decide) rfl (by decide)
theorem ldByte (x : RegIdx) (kk : Byte) : Statement (.ldByte x kk) :=
  formatXKK_selects 0x6 x kk (mat := 0x6000) (by decide) rfl (by decide)
theorem addByte (x : RegIdx) (kk : Byte) : Statement (.addByte x kk) :=
  formatXKK_selects 0x7 x kk (mat := 0x7000) (by decide) rfl (by decide)
theorem ldReg (x y : RegIdx) : Statement (.ldReg x y) :=
  formatXYN_selects_n 0x8 x y 0x0 (mat := 0x8000) (by decide) rfl rfl (by decide)
theorem orReg (x y : RegIdx) : Statement (.orReg x y) :=
  formatXYN_selects_n 0x8 x y 0x1 (mat := 0x8001) (by decide) rfl rfl (by decide)
theorem andReg (x y : RegIdx) : Statement (.andReg x y) :=
  formatXYN_selects_n 0x8 x y 0x2 (mat := 0x8002) (by decide) rfl rfl (by decide)
theorem xorReg (x y : RegIdx) : Statement (.xorReg x y) :=
  formatXYN_selects_n 0x8 x y 0x3 (mat := 0x8003) (by decide) rfl rfl (by decide)
theorem addReg (x y : RegIdx) : Statement (.addReg x y) :=
  formatXYN_selects_n 0x8 x y 0x4 (mat := 0x8004) (by decide) rfl rfl (by decide)
theorem sub (x y : RegIdx) : Statement (.sub x y) :=
  formatXYN_selects_n 0x8 x y 0x5 (mat := 0x8005) (by decide) rfl rfl (by decide)
theorem shr (x : RegIdx) : Statement (.shr x) :=
  formatXYN_selects_n 0x8 x 0 0x6 (mat := 0x8006) (by decide) rfl rfl (by decide)
theorem subn (x y : RegIdx) : Statement (.subn x y) :=
  formatXYN_selects_n 0x8 x y 0x7 (mat := 0x8007) (by decide) rfl rfl (by decide)
theorem shl (x : RegIdx) : Statement (.shl x) :=
  formatXYN_selects_n 0x8 x 0 0xE (mat := 0x800E) (by decide) rfl rfl (by decide)
theorem sneReg (x y : RegIdx) : Statement (.sneReg x y) :=
  formatXYN_selects 0x9 x y 0 (mat := 0x9000) (by decide) rfl (by decide)
theorem ldI (nnn : Addr12) : Statement (.ldI nnn) :=
  formatNNN_selects 0xA nnn (mat := 0xA000) (by decide) rfl (by decide)
theorem jpV0 (nnn : Addr12) : Statement (.jpV0 nnn) :=
  formatNNN_selects 0xB nnn (mat := 0xB000) (by decide) rfl (by decide)
theorem rnd (x : RegIdx) (kk : Byte) : Statement (.rnd x kk) :=
  formatXKK_selects 0xC x kk (mat := 0xC000) (by decide) rfl (by decide)
theorem drw (x y : RegIdx) (n : Nibble) : Statement (.drw x y n) :=
  formatXYN_selects 0xD x y n (mat := 0xD000) (by decide) rfl (by decide)
theorem skp (x : RegIdx) : Statement (.skp x) :=
  formatXKK_selects_kk 0xE x 0x9E (mat := 0xE09E) (by decide) rfl rfl (by decide)
theorem sknp (x : RegIdx) : Statement (.sknp x) :=
  formatXKK_selects_kk 0xE x 0xA1 (mat := 0xE0A1) (by decide) rfl rfl (by decide)
theorem readDelay (x : RegIdx) : Statement (.readDelay x) :=
  formatXKK_selects_kk 0xF x 0x7 (mat := 0xF007) (by decide) rfl rfl (by decide)
theorem waitKey (x : RegIdx) : Statement (.waitKey x) :=
  formatXKK_selects_kk 0xF x 0xA (mat := 0xF00A) (by decide) rfl rfl (by decide)
theorem setDelay (x : RegIdx) : Statement (.setDelay x) :=
  formatXKK_selects_kk 0xF x 0x15 (mat := 0xF015) (by decide) rfl rfl (by decide)
theorem setSound (x : RegIdx) : Statement (.setSound x) :=
  formatXKK_selects_kk 0xF x 0x18 (mat := 0xF018) (by decide) rfl rfl (by decide)
theorem addI (x : RegIdx) : Statement (.addI x) :=
  formatXKK_selects_kk 0xF x 0x1E (mat := 0xF01E) (by decide) rfl rfl (by decide)
theorem fontAddr (x : RegIdx) : Statement (.fontAddr x) :=
  formatXKK_selects_kk 0xF x 0x29 (mat := 0xF029) (by decide) rfl rfl (by decide)
theorem storeBcd (x : RegIdx) : Statement (.storeBcd x) :=
  formatXKK_selects_kk 0xF x 0x33 (mat := 0xF033) (by decide) rfl rfl (by decide)
theorem storeRegs (x : RegIdx) : Statement (.storeRegs x) :=
  formatXKK_selects_kk 0xF x 0x55 (mat := 0xF055) (by decide) rfl rfl (by decide)
theorem loadRegs (x : RegIdx) : Statement (.loadRegs x) :=
  formatXKK_selects_kk 0xF x 0x65 (mat := 0xF065) (by decide) rfl rfl (by decide)
theorem sys (nnn : Addr12) : Statement (.sys nnn) :=
  formatNNN_selects 0x0 nnn (mat := 0x0) (by decide) rfl (by decide)
theorem unrec8 (x y : RegIdx) (n : Nibble) : Statement (.unrec8 x y n) :=
  formatXYN_selects 0x8 x y n (mat := 0x8000) (by decide) rfl (by decide)
theorem unrecE (x : RegIdx) (kk : Byte) : Statement (.unrecE x kk) :=
  formatXKK_selects 0xE x kk (mat := 0xE000) (by decide) rfl (by decide)
theorem unrecF (x : RegIdx) (kk : Byte) : Statement (.unrecF x kk) :=
  formatXKK_selects 0xF x kk (mat := 0xF000) (by decide) rfl (by decide)

end Sys2Proof.Laws.EncodesRow
end

