-- ==== Sys2Proof/Laws/Safety.lean ====
section
/-! SUPPORT. The terms of Safety.lean: how to show that a mask and match encode an instruction, that a step which faults
samples no port, and the frames of the shared updates. -/

namespace Sys2Proof.Machine

/-! ### Encodings, by the width of the dispatch (R94 to R98) -/

theorem encodes_of_op {mat : Word} {f : Word → Instr} (o : Nat) (ho : (fieldOp mat).toNat = o)
    (hf : ∀ w, (fieldOp w).toNat = o → decodeWord w = f w) : Encodes 0xF000 mat f := fun w h =>
  hf w (by rw [fieldOp_of_selects h (by decide), ho])

theorem encodes_of_op_n {mat : Word} {f : Word → Instr} (o n : Nat) (ho : (fieldOp mat).toNat = o)
    (hn : (fieldN mat).toNat = n)
    (hf : ∀ w, (fieldOp w).toNat = o → (fieldN w).toNat = n → decodeWord w = f w) : Encodes 0xF00F mat f := fun w h =>
  hf w (by rw [fieldOp_of_selects h (by decide), ho]) (by rw [fieldN_of_selects h (by decide), hn])

theorem encodes_of_op_kk {mat : Word} {f : Word → Instr} (o : Nat) (ho : (fieldOp mat).toNat = o)
    (hf : ∀ w, (fieldOp w).toNat = o → fieldKk w = fieldKk mat → decodeWord w = f w) : Encodes 0xF0FF mat f :=
  fun w h => hf w (by rw [fieldOp_of_selects h (by decide), ho]) (fieldKk_of_selects h (by decide))

theorem encodes_of_word {mat : Word} {i : Instr} (h : decodeWord mat = i) : Encodes 0xFFFF mat (fun _ => i) :=
  fun w hw => by rw [eq_of_selects_all hw, h]

/-! ### Who raises what, and the ports (R36, R220) -/

/-- The table of R220 asks nothing of the ports. -/
@[simp] theorem fatalOf_samplePorts (i j : Instr) (s : State) (k : Word) (r : Byte) :
    fatalOf i (s.samplePorts j k r) = fatalOf i s := by cases i <;> rfl

/-- A step that faults consumes no port (R127): no instruction of R220's table reads one. -/
theorem samplePorts_of_fatalOf {i : Instr} {s : State} {f : Fatal} (h : fatalOf i s = some f) (k : Word) (r : Byte) :
    s.samplePorts i k r = s := by cases i <;> first | rfl | simp [fatalOf] at h

/-! ### Frames -/

/-- A shorter list of excepted registers says more. -/
theorem RegisterFrame.mono {rs rs' : List RegIdx} {s t : State} (h : RegisterFrame rs s t) (hr : rs ⊆ rs') :
    RegisterFrame rs' s t :=
  ⟨fun r h' => h.1 r fun m => h' (hr m), h.2⟩

theorem frame_setPc (s : State) (p : Word) : RegisterFrame [] s (s.setPc p) :=
  ⟨fun _ _ => rfl, rfl, ⟨rfl, rfl⟩, ⟨rfl, fun _ => rfl⟩, fun _ => rfl, fun _ _ => rfl,
    ⟨rfl, rfl, rfl, rfl, rfl, rfl, rfl, rfl, rfl, rfl⟩⟩

theorem frame_setReg (s : State) (x : RegIdx) (b : Byte) : RegisterFrame [x] s (s.setReg x b).advance := by
  refine ⟨fun r hr => ?_, rfl, ⟨rfl, rfl⟩, ⟨rfl, fun _ => rfl⟩, fun _ => rfl, fun _ _ => rfl,
    ⟨rfl, rfl, rfl, rfl, rfl, rfl, rfl, rfl, rfl, rfl⟩⟩
  simp only [List.mem_singleton] at hr
  simp [hr]

theorem frame_setReg_setReg (s : State) (x y : RegIdx) (a b : Byte) :
    RegisterFrame [x, y] s ((s.setReg x a).setReg y b).advance := by
  refine ⟨fun r hr => ?_, rfl, ⟨rfl, rfl⟩, ⟨rfl, fun _ => rfl⟩, fun _ => rfl, fun _ _ => rfl,
    ⟨rfl, rfl, rfl, rfl, rfl, rfl, rfl, rfl, rfl, rfl⟩⟩
  simp only [List.mem_cons, List.not_mem_nil, or_false, not_or] at hr
  simp [hr]

end Sys2Proof.Machine
end

