-- ==== Sys2Proof/Tests/Slice0.lean ====
section
/-! SUPPORT. The model's own tests: ill-formed terms refused, words decoded, one step per vector of
`spec/95_test_vectors.md` (its ids stand beside each test; those vectors are the spec's own evaluation of its rules), and
for every statement with hypotheses a state that meets them. -/

namespace Sys2Proof.Tests

open Sys2Proof Sys2Proof.Machine

/-! ### Building small states -/

/-- The state of reset with some registers set. -/
def regs (rs : List (RegIdx × Byte)) : State := rs.foldl (fun s r => s.setReg r.1 r.2) State.reset

/-- `s` with bytes stored from an address on. -/
def poke (s : State) (base : Nat) (bytes : List Byte) : State := s.setMem (s.mem.writeBytes base bytes)

/-- One step of the word `w` placed at `PC`, with levels on the ports. -/
def one (w : Nat) (s : State) (keys : Word := 0) (rnd : Byte := 0) : State :=
  match stepEvent keys rnd (s.withFetchWord 16 w) with
  | .next t => t
  | .fault _ => s
  | .refused _ => s

/-- The state of reset, faulted at return (V-RET2). -/
def underflowed : State := one 0x00EE State.reset

/-- The state of reset with `n` entries of a value in use on the stack. -/
def stacked (n : Fin 17) (v : Word) : State := State.reset.setStack (Vector.replicate 16 v) n

/-! ### WellFormed: each check refuses an ill-formed term -/

theorem test_wf_sys_is_not_cls : (Instr.sys 0x0E0).wf = false := by decide
theorem test_wf_sys_is_not_ret : (Instr.sys 0x0EE).wf = false := by decide
theorem test_wf_unrec8_is_not_addReg : (Instr.unrec8 0 1 0x4).wf = false := by decide
theorem test_wf_unrecE_is_not_skp : (Instr.unrecE 2 0x9E).wf = false := by decide
theorem test_wf_unrecF_is_not_storeRegs : (Instr.unrecF 1 0x55).wf = false := by decide
theorem test_wf_unrecognized : (Instr.sys 0x0E1).wf = true ∧ (Instr.unrec8 0 1 0x8).wf = true ∧
    (Instr.unrecE 2 0x9F).wf = true ∧ (Instr.unrecF 1 0x75).wf = true := by decide

/-! ### Decoding: words written out from the patterns of R101 and R102 -/

theorem test_decode_flow : decodeWord 0x00EE = .ret ∧ decodeWord 0x1ABC = .jp 0xABC ∧
    decodeWord 0x2204 = .call 0x204 ∧ decodeWord 0x3142 = .seByte 1 0x42 ∧ decodeWord 0x4A05 = .sneByte 10 0x05 ∧
    decodeWord 0x5120 = .seReg 1 2 ∧ decodeWord 0x5127 = .seReg 1 2 ∧ decodeWord 0x9120 = .sneReg 1 2 ∧
    decodeWord 0x912F = .sneReg 1 2 ∧ decodeWord 0xB2FF = .jpV0 0x2FF := by decide
theorem test_decode_loads_and_alu : decodeWord 0x600A = .ldByte 0 0x0A ∧ decodeWord 0x7380 = .addByte 3 0x80 ∧
    decodeWord 0x8AB0 = .ldReg 10 11 ∧ decodeWord 0x8F11 = .orReg 15 1 ∧ decodeWord 0x8012 = .andReg 0 1 ∧
    decodeWord 0x8223 = .xorReg 2 2 ∧ decodeWord 0x81F4 = .addReg 1 15 ∧ decodeWord 0x8455 = .sub 4 5 ∧
    decodeWord 0x8076 = .shr 0 ∧ decodeWord 0x8127 = .subn 1 2 ∧ decodeWord 0x820E = .shl 2 ∧
    decodeWord 0xC30F = .rnd 3 0x0F := by decide
theorem test_decode_index_and_memory : decodeWord 0xAFFF = .ldI 0xFFF ∧ decodeWord 0xF01E = .addI 0 ∧
    decodeWord 0xF229 = .fontAddr 2 ∧ decodeWord 0xF033 = .storeBcd 0 ∧ decodeWord 0xF255 = .storeRegs 2 ∧
    decodeWord 0xF165 = .loadRegs 1 := by decide
theorem test_decode_display : decodeWord 0x00E0 = .cls ∧ decodeWord 0xDF1A = .drw 15 1 0xA := by decide
theorem test_decode_keypad_and_timers : decodeWord 0xE59E = .skp 5 ∧ decodeWord 0xE5A1 = .sknp 5 ∧
    decodeWord 0xF407 = .readDelay 4 ∧ decodeWord 0xF30A = .waitKey 3 ∧ decodeWord 0xF415 = .setDelay 4 ∧
    decodeWord 0xF418 = .setSound 4 := by decide
theorem test_decode_unrecognized : decodeWord 0x0000 = .sys 0x000 ∧ decodeWord 0x00E1 = .sys 0x0E1 ∧
    decodeWord 0x8018 = .unrec8 0 1 0x8 ∧ decodeWord 0xE09F = .unrecE 0 0x9F ∧
    decodeWord 0xF12A = .unrecF 1 0x2A := by decide
theorem test_decode_truncated : decode [0x00] = .error .truncated := by decide
theorem test_decode_takes_two_bytes : decode [0x60, 0x0A, 0x61] = .ok (.ldByte 0 0x0A, [0x61]) := by decide
theorem test_encode : encode (.drw 15 1 0xA) = 0xDF1A ∧ encode (.shl 2) = 0x820E ∧ encode (.loadRegs 1) = 0xF165 ∧
    encode (.call 0x204) = 0x2204 := by decide
theorem test_decodeTableWord : decodeTableWord 16 0xF165 = some (.loadRegs 1) := by decide

/-! ### Control flow (2.2) -/

theorem test_ret_VRET1 : (one 0x00EE (stacked 1 0x0ABC)).pc = 0x0ABC ∧ (one 0x00EE (stacked 1 0x0ABC)).sp = 0 ∧
    (one 0x00EE (stacked 1 0x0ABC)).stack[0] = 0x0ABC := by decide
theorem test_ret_VRET2 : underflowed.runState = .faulted ∧ underflowed.faultCode = 2 ∧ underflowed.faultInfo = 0 ∧
    underflowed.pc = 0x200 := by decide
theorem test_jp_VJP1_VJP2 : (one 0x1ABC State.reset).pc = 0x0ABC ∧ (one 0x1200 State.reset).pc = 0x0200 := by decide
theorem test_call_VCALL2 : (one 0x2300 (stacked 15 0)).pc = 0x0300 ∧ (one 0x2300 (stacked 15 0)).sp = 16 ∧
    (one 0x2300 (stacked 15 0)).stack[15] = 0x0202 := by decide
theorem test_call_VCALL3 : (one 0x2300 (stacked 16 0)).runState = .faulted ∧ (one 0x2300 (stacked 16 0)).faultCode = 1 ∧
    (one 0x2300 (stacked 16 0)).faultInfo = 0x10 ∧ (one 0x2300 (stacked 16 0)).pc = 0x0200 := by decide
theorem test_seByte_VSE : (one 0x3042 (regs [(0, 0x42)])).pc = 0x204 ∧ (one 0x3042 (regs [(0, 0x41)])).pc = 0x202 := by
  decide
theorem test_sneByte_VSNE : (one 0x4042 (regs [(0, 0x42)])).pc = 0x202 ∧ (one 0x4042 (regs [(0, 0x41)])).pc = 0x204 := by
  decide
theorem test_seReg_VSER : (one 0x5127 (regs [(1, 9), (2, 9)])).pc = 0x204 ∧
    (one 0x5120 (regs [(1, 9), (2, 8)])).pc = 0x202 := by decide
theorem test_sneReg_VSNR : (one 0x912F (regs [(1, 9), (2, 8)])).pc = 0x204 ∧
    (one 0x9120 (regs [(1, 9), (2, 9)])).pc = 0x202 := by decide
theorem test_jpV0_VJV2 : (one 0xBFFF (regs [(0, 0xFF)])).pc = 0x10FE ∧
    (one 0xBFFF (regs [(0, 0xFF)])).runState = .running := by decide
theorem test_fetch_VODD : (one 0x6A55 (State.reset.setPc 0x201)).reg 10 = 0x55 ∧
    (one 0x6A55 (State.reset.setPc 0x201)).pc = 0x203 := by decide
theorem test_fetch_VPC1 : stepEvent 0 0 (State.reset.setPc 0xFFF) =
    .next { State.reset with pc := 0xFFF, runState := .faulted, faultCode := 3, faultInfo := 0x0FFF } := rfl
theorem test_fetch_VPC3 : (one 0x0000 (State.reset.setPc 0xFFE)).pc = 0x1000 ∧
    (one 0x0000 (State.reset.setPc 0xFFE)).runState = .running := by decide

/-! ### Loads and ALU (2.1) -/

theorem test_ldByte_VLD1 : (one 0x6FAB State.reset).reg 15 = 0xAB ∧ (one 0x6FAB State.reset).pc = 0x202 := by decide
theorem test_addByte_VADB1_VADB2 : (one 0x7001 (regs [(0, 0xFF)])).reg 0 = 0 ∧ (one 0x7001 (regs [(0, 0xFF)])).reg 15 = 0 ∧
    (one 0x7380 (regs [(3, 0x90), (15, 7)])).reg 3 = 0x10 ∧ (one 0x7380 (regs [(3, 0x90), (15, 7)])).reg 15 = 7 := by
  decide
theorem test_ldReg_VLD2 : (one 0x8AB0 (regs [(10, 1), (11, 0x77)])).reg 10 = 0x77 ∧
    (one 0x8AB0 (regs [(10, 1), (11, 0x77)])).reg 11 = 0x77 := by decide
theorem test_orReg_VOR1 : (one 0x8011 (regs [(0, 0xF0), (1, 0x0F), (15, 0xAA)])).reg 0 = 0xFF ∧
    (one 0x8011 (regs [(0, 0xF0), (1, 0x0F), (15, 0xAA)])).reg 15 = 0xAA := by decide
theorem test_andReg_VAND1 : (one 0x8012 (regs [(0, 0xF3), (1, 0x3F), (15, 0xAA)])).reg 0 = 0x33 ∧
    (one 0x8012 (regs [(0, 0xF3), (1, 0x3F), (15, 0xAA)])).reg 15 = 0xAA := by decide
theorem test_xorReg_VXOR1_VXOR2 : (one 0x8013 (regs [(0, 0xFF), (1, 0x0F)])).reg 0 = 0xF0 ∧
    (one 0x8223 (regs [(2, 0x5A)])).reg 2 = 0 := by decide
theorem test_addReg_VADD2_VADD3 : (one 0x8014 (regs [(0, 0x80), (1, 0x80)])).reg 0 = 0 ∧
    (one 0x8014 (regs [(0, 0x80), (1, 0x80)])).reg 15 = 1 ∧ (one 0x8014 (regs [(0, 0xF0), (1, 0x0F), (15, 1)])).reg 0 = 0xFF ∧
    (one 0x8014 (regs [(0, 0xF0), (1, 0x0F), (15, 1)])).reg 15 = 0 := by decide
theorem test_addReg_VADD5_VADD7 : (one 0x8F14 (regs [(15, 0xFF), (1, 2)])).reg 15 = 1 ∧
    (one 0x81F4 (regs [(1, 0xFF), (15, 1)])).reg 1 = 0 ∧ (one 0x81F4 (regs [(1, 0xFF), (15, 1)])).reg 15 = 1 := by decide
theorem test_sub_VSUB2_VSUB3 : (one 0x8015 (regs [(0, 0x05), (1, 0x10)])).reg 0 = 0xF5 ∧
    (one 0x8015 (regs [(0, 0x05), (1, 0x10)])).reg 15 = 0 ∧ (one 0x8015 (regs [(0, 7), (1, 7), (15, 1)])).reg 15 = 0 := by
  decide
theorem test_sub_VSUB5_VSUB6 : (one 0x8F15 (regs [(15, 9), (1, 3)])).reg 15 = 6 ∧
    (one 0x81F5 (regs [(1, 9), (15, 3)])).reg 1 = 6 ∧ (one 0x81F5 (regs [(1, 9), (15, 3)])).reg 15 = 1 := by decide
theorem test_subn_VSBN1_VSBN3 : (one 0x8017 (regs [(0, 0x05), (1, 0x10)])).reg 0 = 0x0B ∧
    (one 0x8017 (regs [(0, 0x05), (1, 0x10)])).reg 15 = 1 ∧
    (one 0x8017 (regs [(0, 0x42), (1, 0x42), (15, 1)])).reg 15 = 0 := by decide
theorem test_subn_VSBN4 : (one 0x8F17 (regs [(15, 3), (1, 9)])).reg 15 = 6 := by decide
theorem test_shr_VSHR3_VSHR4 : (one 0x8076 (regs [(0, 0xFF), (7, 0x12)])).reg 0 = 0x7F ∧
    (one 0x8076 (regs [(0, 0xFF), (7, 0x12)])).reg 15 = 1 ∧ (one 0x8F06 (regs [(15, 3)])).reg 15 = 1 := by decide
theorem test_shl_VSHL2_VSHL4 : (one 0x800E (regs [(0, 0x40), (15, 1)])).reg 0 = 0x80 ∧
    (one 0x800E (regs [(0, 0x40), (15, 1)])).reg 15 = 0 ∧ (one 0x8F0E (regs [(15, 0x81)])).reg 15 = 2 := by decide
theorem test_rnd_VRND1_VRND4 : (one 0xC30F State.reset 0 0xA7).reg 3 = 0x07 ∧ (one 0xCFF0 State.reset 0 0x3C).reg 15 = 0x30 := by
  decide

/-! ### The address register and memory (2.3) -/

theorem test_ldI_VLDI : (one 0xAFFF State.reset).i = 0x0FFF := by decide
theorem test_addI_VADI1_VADI2 : (one 0xF01E ((regs [(0, 1), (15, 5)]).setI 0x0FFF)).i = 0x1000 ∧
    (one 0xF01E ((regs [(0, 2), (15, 5)]).setI 0xFFFF)).i = 0x0001 ∧
    (one 0xF01E ((regs [(0, 2), (15, 5)]).setI 0xFFFF)).reg 15 = 5 := by decide
theorem test_fontAddr_VFNT1_VFNT4 : (one 0xF229 (regs [(2, 0x0A)])).i = 0x0032 ∧
    (one 0xF229 (regs [(2, 0xFF)])).i = 0x04FB := by decide
theorem test_storeBcd_VBCD5 : (one 0xF033 ((regs [(0, 0x7B)]).setI 0xFFD)).mem.bytesAt 0xFFC 4 = [0, 1, 2, 3] := by decide
theorem test_storeBcd_VBCD6_VBCD8 : (one 0xF033 ((regs [(0, 0x7B)]).setI 0xFFE)).faultInfo = 0x1000 ∧
    (one 0xF033 ((regs [(0, 0x7B)]).setI 0xFFE)).mem.bytesAt 0xFFE 2 = [0, 0] ∧
    (one 0xF033 (State.reset.setI 0xFFFF)).faultInfo = 0xFFFF ∧ (one 0xF033 (State.reset.setI 0xFFFF)).faultCode = 4 := by
  decide
theorem test_storeRegs_VST1 : (one 0xF255 ((regs [(0, 0x11), (1, 0x22), (2, 0x33), (3, 0x44)]).setI 0x400)).mem.bytesAt
    0x400 4 = [0x11, 0x22, 0x33, 0] ∧ (one 0xF255 ((regs [(0, 0x11)]).setI 0x400)).i = 0x400 := by decide
theorem test_storeRegs_VST4 : (one 0xFF55 ((regs [(0, 0xA0)]).setI 0xFF1)).runState = .faulted ∧
    (one 0xFF55 ((regs [(0, 0xA0)]).setI 0xFF1)).mem.read 0xFF1 = 0 := by decide
theorem test_loadRegs_VLDR2 : (one 0xFF65 State.reset).lowRegs 15 =
    [0xF0, 0x90, 0x90, 0x90, 0xF0, 0x20, 0x60, 0x20, 0x20, 0x70, 0xF0, 0x10, 0xF0, 0x80, 0xF0, 0xF0] := by decide
theorem test_loadRegs_VLDR4 : (one 0xF165 (poke ((regs [(0, 7), (1, 8)]).setI 0xFFF) 0xFFF [0x33])).faultCode = 4 ∧
    (one 0xF165 (poke ((regs [(0, 7), (1, 8)]).setI 0xFFF) 0xFFF [0x33])).lowRegs 1 = [7, 8] := by decide

/-! ### Display (2.4) -/

theorem test_cls_VCLS : (one 0x00E0 ((regs [(15, 1)]).setFb (clearFb.set 31 (clearFb[31].set 63 true)))).pixel 31 63 = false ∧
    (one 0x00E0 ((regs [(15, 1)]).setFb (clearFb.set 31 (clearFb[31].set 63 true)))).reg 15 = 1 := by decide
theorem test_drw_VDRW3 :
    let t := one 0xD013 (poke ((regs [(0, 0x3C), (1, 0x1E)]).setI 0x300) 0x300 [0xFF, 0x81, 0x01])
    t.pixel 30 63 = true ∧ t.pixel 30 3 = true ∧ t.pixel 30 4 = false ∧ t.pixel 31 60 = true ∧ t.pixel 31 61 = false ∧
      t.pixel 0 3 = true ∧ t.pixel 0 60 = false ∧ t.reg 15 = 0 := by decide
theorem test_drw_VDRW6_VDRW10 :
    let s := poke ((regs [(15, 5), (1, 2)]).setI 0x300) 0x300 [0x80]
    let t := one 0xD011 (poke (State.reset.setFb (clearFb.set 0 (clearFb[0].set 1 true)) |>.setI 0x300) 0x300 [0xC0])
    (one 0xDF11 s).pixel 2 5 = true ∧ (one 0xDF11 s).reg 15 = 0 ∧
      t.pixel 0 0 = true ∧ t.pixel 0 1 = false ∧ t.reg 15 = 1 := by decide

/-! ### Keypad and timers (2.5, 2.6) -/

theorem test_skp_VSKP2_VSKP3 : (one 0xE59E (regs [(5, 3)]) 0xFFF7).pc = 0x202 ∧
    (one 0xE59E (regs [(5, 0x13)]) 0x0008).pc = 0x204 := by decide
theorem test_sknp_VSKN2_VSKN3 : (one 0xE5A1 (regs [(5, 3)]) 0x0000).pc = 0x204 ∧
    (one 0xE5A1 (regs [(5, 0xFF)]) 0x8000).pc = 0x202 := by decide
theorem test_readDelay_VRDT : (one 0xF407 ((regs [(4, 1)]).setDt 0x3C)).reg 4 = 0x3C ∧
    (one 0xF407 ((regs [(4, 1)]).setDt 0x3C)).dt = 0x3C := by decide
theorem test_waitKey_VWK1_VWK3 : (one 0xF30A (regs [(3, 0x77)]) 0).pc = 0x200 ∧ (one 0xF30A (regs [(3, 0x77)]) 0).reg 3 = 0x77 ∧
    (one 0xF30A (regs [(3, 0x77)]) 0x0204).reg 3 = 2 ∧ (one 0xF30A (regs [(3, 0x77)]) 0x0204).pc = 0x202 := by decide
theorem test_setDelay_VSDT : (one 0xF415 (regs [(4, 0xFF)])).dt = 0xFF ∧ (one 0xF415 (regs [(4, 0xFF)])).st = 0 := by decide
theorem test_setSound_VSST : (one 0xF418 (regs [(4, 2)])).st = 2 ∧ (one 0xF418 (regs [(4, 2)])).tone = false ∧
    (one 0xF418 (regs [(4, 2)])).sound = [] := by decide
theorem test_tick_VT3 :
    let t := tickEvent (State.reset.setSt 2)
    t.st = 1 ∧ t.tone = true ∧ t.sound = [.start] ∧ (tickEvent t).st = 0 ∧ (tickEvent t).tone = false ∧
      (tickEvent t).sound = [.start, .stop] := by decide
theorem test_tick_VT4 : (tickEvent (State.reset.setSt 1)).sound = [.start, .stop] ∧
    (tickEvent (State.reset.setSt 1)).tone = false := by decide

/-! ### Unrecognized words (2.7) -/

/-- The state of 2.7: `V[k]` = k + 1, `I` = 0123. -/
def counted : State := (State.reset.setLowRegs ((List.range 16).map fun k => BitVec.ofNat 8 (k + 1))).setI 0x123

/-- `PC` moves by 2 and registers, `I`, stack depth and memory stay. -/
def onlyAdvances (w : Nat) : Bool :=
  let t := one w counted
  t.pc == 0x202 && t.v == counted.v && t.i == 0x123 && t.sp == 0 && t.mem == (counted.withFetchWord 16 w).mem

theorem test_sys : onlyAdvances 0x0123 && onlyAdvances 0x0EE0 = true := by decide
theorem test_unrec8 : onlyAdvances 0x8008 && onlyAdvances 0x800F = true := by decide
theorem test_unrecE : onlyAdvances 0xE09F && onlyAdvances 0xE0A0 = true := by decide
theorem test_unrecF : onlyAdvances 0xF075 && onlyAdvances 0xFFFF = true := by decide

/-! ### Reset and load_rom (2.8) -/

theorem test_reset_VRST2 :
    let t := resetEvent (poke (poke (poke { State.reset with rom := [0x12, 0x00] } 0x300 [0xAA]) 0 [0x00]) 0x200 [0xFF])
    t.mem.read 0 = 0xF0 ∧ t.mem.read 0x200 = 0x12 ∧ t.mem.read 0x300 = 0xAA := by decide
theorem test_reset_VRST3 : (resetEvent underflowed).runState = .running ∧ (resetEvent underflowed).faultCode = 0 ∧
    (resetEvent underflowed).pc = 0x200 := by decide
theorem test_loadRom_VROM3 :
    let s := resetEvent (loadRomEvent [0x55, 0x66] (loadRomEvent [0x11, 0x22, 0x33, 0x44] State.reset))
    s.mem.bytesAt 0x200 4 = [0x55, 0x66, 0x33, 0x44] ∧ s.rom = [0x55, 0x66] := by decide

/-! ### `withFetchWord`: the very next step runs the word -/

theorem test_withFetchWord_after_reset : step (State.reset.withFetchWord 16 0x6105) =
    .next { State.reset.withFetchWord 16 0x6105 with v := (Vector.replicate 16 0).set 1 5, pc := 0x202 } := rfl

/-! ### Sampling the ports (R36, R127) -/

/-- A step that faults consumes no level: V-RET2 with keys down and a byte on `rnd`. -/
theorem test_faulting_step_samples_nothing :
    let t := one 0x00EE State.reset 0x8001 0xA7
    t.runState = .faulted ∧ t.keys = 0 ∧ t.rnd = 0 ∧ t.samples = 0 := by decide
/-- The key skips sample the keys alone, random the byte alone. -/
theorem test_sampling_is_per_port :
    let t := one 0xE59E State.reset 0x8001 0xA7
    let u := one 0xC30F State.reset 0x8001 0xA7
    t.keys = 0x8001 ∧ t.rnd = 0 ∧ t.samples = 1 ∧ u.keys = 0 ∧ u.rnd = 0xA7 ∧ u.samples = 1 := by decide

/-! ### Hypotheses are met, at the boundaries of each clause -/

/-- A state with a stored byte and an image. -/
def used : State := poke { regs [(0, 3), (1, 0x80)] with rom := [0x12, 0x00] } 0x300 [0xAA]

theorem witness_ResetReinitialises : used.mem.wf ∧ used.rom.length ≤ 3584 := by decide
theorem witness_LoadRom : used.mem.wf ∧ (List.replicate 3584 (0 : Byte)).length ≤ 3584 ∧
    3584 < (List.replicate 3585 (0 : Byte)).length := by
  exact ⟨by decide, by rw [List.length_replicate], by rw [List.length_replicate]; omega⟩
theorem witness_Tick : (State.reset.setSt 0).st = 0 ∧ (State.reset.setSt 1).st = 1 ∧ 1 < (State.reset.setSt 2).st.toNat ∧
    1 < (State.reset.setSt 255).st.toNat ∧ State.reset.tone = false ∧ (tickEvent (State.reset.setSt 2)).tone = true := by
  decide
theorem witness_ToneFollows : (tickEvent (State.reset.setSt 1)).tone = false := by decide
theorem witness_StepRuns : State.reset.runState = .running ∧ State.reset.pc.toNat ≤ 0xFFE ∧ (Instr.sys 0).wf = true ∧
    decode [State.reset.mem.read State.reset.pc.toNat, State.reset.mem.read (State.reset.pc.toNat + 1)] =
      .ok (.sys 0, []) ∧ State.reset.schedule = [] ∧
    (State.reset.setSchedule [.step 1 2]).schedule = .step 1 2 :: [] := by decide
theorem witness_Fetch : (State.reset.setPc 0xFFE).pc.toNat ≤ 0xFFE ∧ 0xFFE < (State.reset.setPc 0xFFF).pc.toNat ∧
    (State.reset.setPc 0xFFF).runState = .running := by decide
theorem witness_FaultedStep : underflowed.runState = .faulted ∧ underflowed.schedule = [] := by decide
theorem witness_OnlyResetLeavesFaulted : underflowed.runState = .faulted ∧ HostEvent.tick ≠ .reset ∧
    hostEvent .tick underflowed = .next (tickEvent underflowed) := ⟨by decide, by decide, rfl⟩
theorem witness_Scheduled : (State.reset.setSchedule [.tick, .reset]).schedule = .tick :: [.reset] ∧
    (State.reset.setSchedule [.reset]).schedule = .reset :: [] ∧
    (State.reset.setSchedule [.loadRom [1]]).schedule = .loadRom [1] :: [] ∧
    (State.reset.setSchedule [.step 1 2]).schedule = .step 1 2 :: [] := by decide
theorem witness_StackOverflow : (stacked 16 0).sp = 16 ∧ (stacked 15 0).sp.val < 16 ∧ (stacked 16 0).runState = .running ∧
    ∃ t, exec (.call 0x300) (stacked 16 0) = .next t ∧ t.runState = .faulted ∧
      t.faultCode = FatalCode.stackOverflow.number :=
  ⟨by decide, by decide, by decide, _, rfl, by decide, by decide⟩
theorem witness_StackUnderflow : State.reset.sp = 0 ∧ State.reset.runState = .running ∧
    ∃ t, exec .ret State.reset = .next t ∧ t.runState = .faulted ∧ t.faultCode = FatalCode.stackUnderflow.number :=
  ⟨by decide, by decide, _, rfl, by decide, by decide⟩
theorem witness_FatalTable : fatalOf (.call 0x300) (stacked 16 0) = some ⟨.stackOverflow, 16⟩ ∧
    fatalOf .ret State.reset = some ⟨.stackUnderflow, 0⟩ ∧
    fatalOf (.drw 0 1 5) (State.reset.setI 0xFFC) = some ⟨.memOor, 0x1000⟩ ∧
    fatalOf (.drw 0 1 5) (State.reset.setI 0xFFB) = none ∧
    fatalOf (.storeBcd 0) (State.reset.setI 0xFFE) = some ⟨.memOor, 0x1000⟩ ∧
    fatalOf (.storeRegs 15) (State.reset.setI 0xFF1) = some ⟨.memOor, 0x1000⟩ ∧
    fatalOf (.loadRegs 15) (State.reset.setI 0xFF0) = none := by decide
theorem witness_FaultsArePrecise : ∃ t, stepEvent 0 0 (State.reset.withFetchWord 16 0x00EE) = .next t ∧
    t.runState = .faulted := ⟨_, rfl, by decide⟩
theorem witness_EveryEventKeepsTheInvariant : Inv used ∧ ∃ t, step used = .next t := by
  refine ⟨⟨by decide, by decide, by decide, ?_, ?_⟩, _, rfl⟩
  · intro k hk; exact absurd hk (Nat.not_lt_zero _)
  · exact ⟨rfl, rfl⟩
/-- A FAULTED state meets the invariant, one for each code of R220. -/
theorem witness_Inv_faulted_overflow : Inv (one 0x2300 (stacked 16 0x202)) ∧
    (one 0x2300 (stacked 16 0x202)).faultCode = 1 :=
  ⟨⟨by decide, by decide, by decide, by decide, .inl (by decide)⟩, by decide⟩
theorem witness_Inv_faulted_underflow : Inv underflowed ∧ underflowed.faultCode = 2 :=
  ⟨⟨by decide, by decide, by decide, by decide, .inr (.inl (by decide))⟩, by decide⟩
theorem witness_Inv_faulted_pc : Inv ((State.reset.setPc 0xFFF).raiseFatal ⟨.pcOor, 0xFFF⟩) ∧
    stepEvent 0 0 (State.reset.setPc 0xFFF) = .next ((State.reset.setPc 0xFFF).raiseFatal ⟨.pcOor, 0xFFF⟩) :=
  ⟨⟨by decide, by decide, by decide, by decide, .inr (.inr (.inl (by decide)))⟩, rfl⟩
theorem witness_Inv_faulted_memory : Inv (one 0xFF55 (State.reset.setI 0xFF1)) ∧
    (one 0xFF55 (State.reset.setI 0xFF1)).faultCode = 4 ∧ (one 0xFF55 (State.reset.setI 0xFF1)).faultInfo = 0x1000 :=
  ⟨⟨by decide, by decide, by decide, by decide, .inr (.inr (.inr (by decide)))⟩, by decide⟩
theorem witness_DecodeOfEncode : (Instr.sys 0x123).wf = true ∧ (Instr.drw 15 15 15).wf = true ∧
    (Instr.unrecF 0 0x00).wf = true := by decide
theorem witness_DecodingFollowsTheOpcodeMap : (Instr.shr 0).recognized = true ∧
    selects (rowOf (.shr 0)).1 (rowOf (.shr 0)).2 0x8076 := by decide
theorem witness_IgnoredFields : (fieldOp 0x5120 = fieldOp 0x5127 ∧ fieldX 0x5120 = fieldX 0x5127 ∧
      fieldOp 0x5120 = 5 ∧ fieldY 0x5120 = fieldY 0x5127) ∧
    (fieldOp 0x9120 = fieldOp 0x912F ∧ fieldX 0x9120 = fieldX 0x912F ∧
      fieldOp 0x9120 = 9 ∧ fieldY 0x9120 = fieldY 0x912F) ∧
    (fieldOp 0x8006 = fieldOp 0x8076 ∧ fieldX 0x8006 = fieldX 0x8076 ∧
      fieldOp 0x8006 = 8 ∧ fieldN 0x8006 = fieldN 0x8076 ∧ fieldN 0x8006 = 6) ∧
    (fieldOp 0x800E = fieldOp 0x80FE ∧ fieldX 0x800E = fieldX 0x80FE ∧
      fieldOp 0x800E = 8 ∧ fieldN 0x800E = fieldN 0x80FE ∧ fieldN 0x800E = 0xE) := by decide
/-- Every row's own match, and a word with every other bit set, select the row: no `Encodes` is about no word. -/
theorem witness_Encodes : ∀ i ∈ [Instr.cls, .ret, .jp 0, .call 0, .seByte 0 0, .sneByte 0 0, .seReg 0 0, .ldByte 0 0,
    .addByte 0 0, .ldReg 0 0, .orReg 0 0, .andReg 0 0, .xorReg 0 0, .addReg 0 0, .sub 0 0, .shr 0, .subn 0 0, .shl 0,
    .sneReg 0 0, .ldI 0, .jpV0 0, .rnd 0 0, .drw 0 0 0, .skp 0, .sknp 0, .readDelay 0, .waitKey 0, .setDelay 0,
    .setSound 0, .addI 0, .fontAddr 0, .storeBcd 0, .storeRegs 0, .loadRegs 0],
    selects (rowOf i).1 (rowOf i).2 (rowOf i).2 ∧ selects (rowOf i).1 (rowOf i).2 ((rowOf i).2 ||| ~~~(rowOf i).1) := by
  decide
theorem witness_FlagInstructions : (14 : RegIdx) ≠ 15 ∧ (0 : RegIdx) ≠ 15 := by decide
theorem witness_Call : (stacked 15 0).sp.val < 16 ∧ State.reset.sp.val < 16 ∧ (stacked 16 0).sp = 16 := by decide
theorem witness_Return : 0 < (stacked 1 0x202).sp.val ∧ 0 < (stacked 16 0x202).sp.val ∧ State.reset.sp = 0 ∧
    ((0 : Fin 16).val + 1 = (stacked 1 0x202).sp.val) := by decide
theorem witness_StoreBcd : used.mem.wf ∧ (used.setI 0xFFD).i.toNat ≤ 0xFFD ∧ 0xFFD < (used.setI 0xFFE).i.toNat := by decide
theorem witness_BlockTransfers : used.mem.wf ∧ (used.setI 0xFF0).i.toNat + (15 : RegIdx).val ≤ 0xFFF ∧
    0xFFF < (used.setI 0xFF1).i.toNat + (15 : RegIdx).val ∧ (used.setI 0xFFF).i.toNat + (0 : RegIdx).val ≤ 0xFFF ∧
    0xFFF < (used.setI 0x1000).i.toNat + (0 : RegIdx).val ∧ ((3 : RegIdx) ≤ 15) ∧ ((3 : RegIdx) < 4) := by decide
theorem witness_StoresAreSeen : (used.setI 0x202).mem.wf ∧ (used.setI 0x202).pc.toNat + 2 ≤ 0xFFE ∧
    (used.setI 0x202).i = (used.setI 0x202).pc + 2 ∧ 1 ≤ (1 : RegIdx).val ∧
    (used.setI 0x202).i.toNat + (1 : RegIdx).val ≤ 0xFFF := by decide
theorem witness_Draw : ((0 : Nibble) = 0) ∧ (used.setI 0xFF1).i.toNat + (15 : Nibble).toNat ≤ 0x1000 ∧
    ((15 : Nibble) ≠ 0 ∧ 0x1000 < (used.setI 0xFF2).i.toNat + (15 : Nibble).toNat) := by decide
/-- The two collision clauses of draw: on a lit pixel under the sprite, and on a clear screen. -/
theorem witness_Draw_collision :
    (∃ row col, (State.reset.setFb (clearFb.set 0 (clearFb[0].set 0 true))).pixel row col = true ∧
      SpriteCovers (State.reset.setFb (clearFb.set 0 (clearFb[0].set 0 true))) 0 1 5 row col) ∧
    ¬ ∃ row col, State.reset.pixel row col = true ∧ SpriteCovers State.reset 0 1 5 row col := by
  refine ⟨⟨0, 0, by decide, 0, by decide, 0, by decide, by decide, by decide, by decide⟩, ?_⟩
  rintro ⟨row, col, h, -⟩
  simp [State.reset, State.pixel] at h
theorem witness_DrawTwice : (0 : RegIdx) ≠ 15 ∧ (14 : RegIdx) ≠ 15 ∧
    State.reset.i.toNat + (5 : Nibble).toNat ≤ 0x1000 := by decide
theorem witness_Glyph : (∀ k < 80, Config.font[k]? = some (State.reset.mem.read k)) ∧ ((regs [(2, 15)]).reg 2).toNat < 16 := by
  decide
theorem witness_WaitKey : State.reset.keys = 0 ∧ (State.reset.samplePorts (.waitKey 0) 0x8000 0).keys ≠ 0 := by decide
/-- The state of a tone that sounds (V-T3 after its first tick), with `V4` set. -/
def sounding (b : Byte) : State := (tickEvent (State.reset.setSt 2)).setReg 4 b
theorem witness_SetSound : ((regs [(4, 0)]).reg 4 = 0 ∧ (regs [(4, 0)]).tone = false) ∧
    ((sounding 0).reg 4 = 0 ∧ (sounding 0).tone = true) ∧ ((regs [(4, 1)]).reg 4 = 1 ∧ (regs [(4, 1)]).tone = false) ∧
    ((sounding 1).reg 4 = 1 ∧ (sounding 1).tone = true) ∧
    (1 < ((regs [(4, 2)]).reg 4).toNat ∧ (regs [(4, 2)]).tone = false) ∧
    (1 < ((sounding 255).reg 4).toNat ∧ (sounding 255).tone = true) := by decide
theorem witness_Unrecognized : (decodeWord 0x0000).recognized = false ∧ (decodeWord 0x8018).recognized = false ∧
    (decodeWord 0xE09F).recognized = false ∧ (decodeWord 0xF075).recognized = false ∧ (Instr.sys 0).recognized = false := by decide
theorem witness_FixedPoints :
    (poke State.reset 0x200 [0x12, 0x00]).pc.toNat = (0x200 : Addr12).toNat ∧
    decodeWord (wordOfBytes ((poke State.reset 0x200 [0x12, 0x00]).mem.read 0x200)
      ((poke State.reset 0x200 [0x12, 0x00]).mem.read 0x201)) = .jp 0x200 ∧
    decodeWord (wordOfBytes ((poke State.reset 0x200 [0xF3, 0x0A]).mem.read 0x200)
      ((poke State.reset 0x200 [0xF3, 0x0A]).mem.read 0x201)) = .waitKey 3 := by decide
theorem witness_OrdinaryAdvance : fatalOf (.loadRegs 1) State.reset = none ∧
    (∃ t, exec (.loadRegs 1) State.reset = .next t) ∧ (Instr.loadRegs 1 ≠ .ret) ∧ (∀ nnn, Instr.loadRegs 1 ≠ .jp nnn) ∧
    (∀ nnn, Instr.loadRegs 1 ≠ .call nnn) ∧ (∀ nnn, Instr.loadRegs 1 ≠ .jpV0 nnn) ∧
    (∀ x kk, Instr.loadRegs 1 ≠ .seByte x kk) ∧ (∀ x kk, Instr.loadRegs 1 ≠ .sneByte x kk) ∧
    (∀ x y, Instr.loadRegs 1 ≠ .seReg x y) ∧ (∀ x y, Instr.loadRegs 1 ≠ .sneReg x y) ∧
    (∀ x, Instr.loadRegs 1 ≠ .skp x) ∧ (∀ x, Instr.loadRegs 1 ≠ .sknp x) ∧ (∀ x, Instr.loadRegs 1 ≠ .waitKey x) := by
  refine ⟨by decide, ⟨_, rfl⟩, ?_⟩
  simp
theorem witness_OnlyDrawAndClear : (∃ t, exec (.storeRegs 1) State.reset = .next t) ∧
    (∀ x y n, Instr.storeRegs 1 ≠ .drw x y n) ∧ Instr.storeRegs 1 ≠ .cls := by
  refine ⟨⟨_, rfl⟩, ?_⟩; simp
theorem witness_OnlyStores : (∃ t, exec (.call 0x300) State.reset = .next t) ∧
    (∀ x, Instr.call 0x300 ≠ .storeBcd x) ∧ (∀ x, Instr.call 0x300 ≠ .storeRegs x) := by
  refine ⟨⟨_, rfl⟩, ?_⟩; simp
theorem witness_OnlyThree : (∃ t, exec (.storeRegs 1) State.reset = .next t) ∧
    (∀ nnn, Instr.storeRegs 1 ≠ .ldI nnn) ∧ (∀ x, Instr.storeRegs 1 ≠ .addI x) ∧
    (∀ x, Instr.storeRegs 1 ≠ .fontAddr x) := by
  refine ⟨⟨_, rfl⟩, ?_⟩; simp
theorem witness_OnlyCallAndReturn : (∃ t, exec (.jp 0x300) State.reset = .next t) ∧
    (∀ nnn, Instr.jp 0x300 ≠ .call nnn) ∧ Instr.jp 0x300 ≠ .ret := by
  refine ⟨⟨_, rfl⟩, ?_⟩; simp
theorem witness_Timers : (∃ t, exec (.setDelay 4) State.reset = .next t) ∧ (∀ x, Instr.setDelay 4 ≠ .setSound x) ∧
    (∃ t, exec (.setSound 4) State.reset = .next t) ∧ (∀ x, Instr.setSound 4 ≠ .setDelay x) ∧
    (∀ x, Instr.setSound 4 ≠ .readDelay x) := by
  refine ⟨⟨_, rfl⟩, ?_, ⟨_, rfl⟩, ?_⟩ <;> simp
theorem witness_ToneOrImage : ∃ t, exec (.setSound 4) State.reset = .next t := ⟨_, rfl⟩
theorem witness_Ports : (∃ t, exec (.skp 4) State.reset = .next t) ∧ (∀ x kk, Instr.skp 4 ≠ .rnd x kk) ∧
    (∃ t, exec (.rnd 4 1) State.reset = .next t) ∧ (∀ x, Instr.rnd 4 1 ≠ .skp x) ∧ (∀ x, Instr.rnd 4 1 ≠ .sknp x) ∧
    (∀ x, Instr.rnd 4 1 ≠ .waitKey x) := by
  refine ⟨⟨_, rfl⟩, ?_, ⟨_, rfl⟩, ?_⟩ <;> simp
/-- Reset's own next word reads neither port. -/
theorem witness_Ports_step :
    decodeWord (wordOfBytes (State.reset.mem.read State.reset.pc.toNat)
      (State.reset.mem.read (State.reset.pc.toNat + 1))) = .sys 0 ∧
    (∀ x kk, Instr.sys 0 ≠ .rnd x kk) ∧ (∀ x, Instr.sys 0 ≠ .skp x) ∧ (∀ x, Instr.sys 0 ≠ .sknp x) ∧
    (∀ x, Instr.sys 0 ≠ .waitKey x) := by
  refine ⟨by decide, ?_⟩; simp

end Sys2Proof.Tests
end

/-! PROOFS about the state as a whole: what an instruction can do to it, which fields it ignores, and the invariant. -/

namespace Sys2Proof.Machine

/-! ### What an instruction can do, said once -/

section Effects

/-- The instructions that end with the common skip rule (R148). -/
def isSkip : Instr → Bool
  | .seByte _ _ | .sneByte _ _ | .seReg _ _ | .sneReg _ _ | .skp _ | .sknp _ => true
  | _ => false

/-- What executing `i` in `s` can leave behind, by the parts of the state that are written. Register values are not
followed; every other write, and the guard under which it happens, is. -/
inductive Effect (s : State) : Instr → State → Prop
  /-- a condition of the table of R220 is met, and nothing but the fault record is written -/
  | fault {i f} (hf : fatalOf i s = some f) : Effect s i (s.raiseFatal f)
  /-- registers alone -/
  | regs {i} (v : Vector Byte 16) : Effect s i { s with v := v }.advance
  | skip {i} (c : Bool) (hi : isSkip i = true) : Effect s i (s.skipIf c)
  /-- wait-key with no key down (R203) -/
  | idle (x : RegIdx) : Effect s (.waitKey x) s
  | jp (nnn : Addr12) : Effect s (.jp nnn) (s.setPc (absAddr nnn))
  | jpV0 (nnn : Addr12) : Effect s (.jpV0 nnn) (s.setPc (absAddr nnn + zext16 (s.reg 0)))
  | call (nnn : Addr12) (hd : s.sp.val < 16) :
    Effect s (.call nnn)
      ((s.setStack (s.stack.set s.sp.val (s.pc + 2)) ⟨s.sp.val + 1, by omega⟩).setPc (absAddr nnn))
  | ret (hd : 0 < s.sp.val) :
    Effect s .ret ((s.setStack s.stack ⟨s.sp.val - 1, by omega⟩).setPc s.stack[s.sp.val - 1])
  | index {i} (a : Word) (hi : (∃ nnn, i = .ldI nnn) ∨ (∃ x, i = .addI x) ∨ ∃ x, i = .fontAddr x) :
    Effect s i (s.setI a).advance
  | delay (x : RegIdx) : Effect s (.setDelay x) (s.setDt (s.reg x)).advance
  | sound (x : RegIdx) : Effect s (.setSound x) (s.setSt (s.reg x)).advance
  | clear : Effect s .cls (s.setFb clearFb).advance
  | draw (x y : RegIdx) (n : Nibble) (fb : Framebuffer) (hit : Byte) :
    Effect s (.drw x y n) ((s.setFb fb).setReg vf hit).advance
  | store {i} (bytes : List Byte) (hi : (∃ x, i = .storeBcd x) ∨ ∃ x, i = .storeRegs x)
    (hm : s.i.toNat + bytes.length ≤ 0x1000) :
    Effect s i (s.setMem (s.mem.writeBytes s.i.toNat bytes)).advance

variable {i : Instr} {s t : State}

theorem orRaise_ok {α : Type} {r : Except Fatal α} {a : α} {k : α → State} (h : r = .ok a) :
    orRaise r s k = .next (k a) := by rw [h]; rfl

theorem orRaise_error {α : Type} {r : Except Fatal α} {f : Fatal} {k : α → State} (h : r = .error f) :
    orRaise r s k = .next (s.raiseFatal f) := by rw [h]; rfl

@[simp] theorem ea_zero (s : State) : ea s 0 = s.i.toNat := rfl

/-- A checked read: what is done with its bytes, or `MEM_OOR` (R63, R80). -/
theorem read_effect {n : Nat} {k : List Byte → State} (hk : ∀ bytes, Effect s i (k bytes))
    (hf : 0 < n ∧ 0x1000 < s.i.toNat + n → fatalOf i s = some (memFatal s.i.toNat)) :
    ∃ t, orRaise (readBlock s (ea s 0) n) s k = .next t ∧ Effect s i t := by
  rcases readBlock_cases s (ea s 0) n with ⟨-, hr⟩ | ⟨hm, hr⟩
  · exact ⟨_, orRaise_ok hr, hk _⟩
  · exact ⟨_, orRaise_error hr, .fault (hf hm)⟩

/-- A checked store of at least one byte: its bytes are written, or it raises `MEM_OOR` (R64, R80). -/
theorem store_effect {bytes : List Byte} (hi : (∃ x, i = .storeBcd x) ∨ ∃ x, i = .storeRegs x)
    (hlen : 0 < bytes.length)
    (hf : 0x1000 < s.i.toNat + bytes.length → fatalOf i s = some (memFatal s.i.toNat)) :
    ∃ t, orRaise (writeBlock s (ea s 0) bytes) s State.advance = .next t ∧ Effect s i t := by
  rcases writeBlock_cases s (ea s 0) bytes with ⟨hm, hw⟩ | ⟨⟨-, hm⟩, hw⟩
  · exact ⟨_, orRaise_ok hw, .store bytes hi (by rw [ea_zero] at hm; omega)⟩
  · exact ⟨_, orRaise_error hw, .fault (hf hm)⟩

/-- Every instruction answers a next state, and an effect of `Effect` leads there. -/
theorem exec_effect (i : Instr) (s : State) : ∃ t, exec i s = .next t ∧ Effect s i t := by
  cases i with
  | cls => exact ⟨_, rfl, .clear⟩
  | ret =>
    rcases pop_cases s with ⟨hd, hp⟩ | ⟨hd, hp⟩
    · exact ⟨_, orRaise_ok hp, .ret hd⟩
    · exact ⟨_, orRaise_error hp, .fault (by simp [fatalOf, hd])⟩
  | jp nnn => exact ⟨_, rfl, .jp nnn⟩
  | call nnn =>
    rcases push_cases s (s.pc + 2) with ⟨hd, hp⟩ | ⟨hd, hp⟩
    · exact ⟨_, orRaise_ok hp, .call nnn hd⟩
    · exact ⟨_, orRaise_error hp, .fault (by simp [fatalOf, hd])⟩
  | seByte x kk => exact ⟨_, rfl, .skip _ rfl⟩
  | sneByte x kk => exact ⟨_, rfl, .skip _ rfl⟩
  | seReg x y => exact ⟨_, rfl, .skip _ rfl⟩
  | ldByte x kk => exact ⟨_, rfl, .regs _⟩
  | addByte x kk => exact ⟨_, rfl, .regs _⟩
  | ldReg x y => exact ⟨_, rfl, .regs _⟩
  | orReg x y => exact ⟨_, rfl, .regs _⟩
  | andReg x y => exact ⟨_, rfl, .regs _⟩
  | xorReg x y => exact ⟨_, rfl, .regs _⟩
  | addReg x y => exact ⟨_, rfl, .regs _⟩
  | sub x y => exact ⟨_, rfl, .regs _⟩
  | shr x => exact ⟨_, rfl, .regs _⟩
  | subn x y => exact ⟨_, rfl, .regs _⟩
  | shl x => exact ⟨_, rfl, .regs _⟩
  | sneReg x y => exact ⟨_, rfl, .skip _ rfl⟩
  | ldI nnn => exact ⟨_, rfl, .index _ (.inl ⟨nnn, rfl⟩)⟩
  | jpV0 nnn => exact ⟨_, rfl, .jpV0 nnn⟩
  | rnd x kk => exact ⟨_, rfl, .regs _⟩
  | drw x y n => exact read_effect (fun _ => .draw x y n _ _) fun hm => if_pos (by omega)
  | skp x => exact ⟨_, rfl, .skip _ rfl⟩
  | sknp x => exact ⟨_, rfl, .skip _ rfl⟩
  | readDelay x => exact ⟨_, rfl, .regs _⟩
  | waitKey x =>
    cases hk : leastKey s.keys with
    | none => exact ⟨s, by simp only [exec, execWaitKey, hk], .idle x⟩
    | some k => exact ⟨(s.setReg x (BitVec.ofNat 8 k)).advance, by simp only [exec, execWaitKey, hk], .regs _⟩
  | setDelay x => exact ⟨_, rfl, .delay x⟩
  | setSound x => exact ⟨_, rfl, .sound x⟩
  | addI x => exact ⟨_, rfl, .index _ (.inr (.inl ⟨x, rfl⟩))⟩
  | fontAddr x => exact ⟨_, rfl, .index _ (.inr (.inr ⟨x, rfl⟩))⟩
  | storeBcd x =>
    refine store_effect (.inl ⟨x, rfl⟩) (by simp) fun hm => if_pos ?_
    rw [length_bcdDigits] at hm; omega
  | storeRegs x =>
    refine store_effect (.inr ⟨x, rfl⟩) (by simp) fun hm => if_pos ?_
    rw [length_lowRegs] at hm; omega
  | loadRegs x => exact read_effect (fun _ => .regs _) fun hm => if_pos (by omega)
  | sys nnn => exact ⟨_, rfl, .regs s.v⟩
  | unrec8 x y n => exact ⟨_, rfl, .regs s.v⟩
  | unrecE x kk => exact ⟨_, rfl, .regs s.v⟩
  | unrecF x kk => exact ⟨_, rfl, .regs s.v⟩

/-- The inversion of `exec`: whatever it answers was left by an effect of `Effect`. -/
theorem effect_of_exec (h : exec i s = .next t) : Effect s i t := by
  obtain ⟨u, hu, he⟩ := exec_effect i s
  obtain rfl : u = t := Host.Outcome.next.inj (hu.symm.trans h)
  exact he

/-- The pixels move only under draw and clear-screen (R29). -/
theorem Effect.samePixels (h : Effect s i t) (hdrw : ∀ x y n, i ≠ .drw x y n) (hcls : i ≠ .cls) : SamePixels s t := by
  cases h with
  | clear => exact absurd rfl hcls
  | draw x y n => exact absurd rfl (hdrw x y n)
  | _ => exact fun _ _ => rfl

/-- The stack moves only under call and return (R27). -/
theorem Effect.sameStack (h : Effect s i t) (hcall : ∀ nnn, i ≠ .call nnn) (hret : i ≠ .ret) : SameStack s t := by
  cases h with
  | call nnn => exact absurd rfl (hcall nnn)
  | ret => exact absurd rfl hret
  | _ => exact ⟨rfl, fun _ => rfl⟩

end Effects

/-- Settles O54: of all effects, only those of draw and clear-screen write the framebuffer. -/
theorem onlyDrawAndClearChangePixels : Obligations.OnlyDrawAndClearChangePixels :=
  fun _ _ _ h hdrw hcls => (effect_of_exec h).samePixels hdrw hcls

/-- Settles O57: of all effects, only those of call and return write the stack. -/
theorem onlyCallAndReturnMoveTheStack : Obligations.OnlyCallAndReturnMoveTheStack :=
  fun _ _ _ h hcall hret => (effect_of_exec h).sameStack hcall hret

/-! ### The step, case by case -/

section Steps

variable {s : State}

/-- The instruction at `PC`. -/
abbrev State.atPc (s : State) : Instr :=
  decodeWord (wordOfBytes (s.mem.read s.pc.toNat) (s.mem.read (s.pc.toNat + 1)))

theorem stepEvent_faulted (keys : Word) (rnd : Byte) (h : s.runState = .faulted) : stepEvent keys rnd s = .next s := by
  simp only [stepEvent, h]

/-- What a step in `RUNNING` can do: raise `PC_OOR`, or execute the instruction at `PC` (R66, R122). -/
theorem stepEvent_running (h : s.runState = .running) :
    (s.pc.toNat ≤ 0xFFE ∧ ∀ keys rnd, stepEvent keys rnd s = exec s.atPc (s.samplePorts s.atPc keys rnd)) ∨
    (0xFFE < s.pc.toNat ∧ ∀ keys rnd, stepEvent keys rnd s = .next (s.raiseFatal ⟨.pcOor, s.pc⟩)) := by
  rcases fetch16_cases s with ⟨hpc, hf⟩ | ⟨hpc, hf⟩
  · exact .inl ⟨hpc, fun keys rnd => by simp only [stepEvent, h, hf]⟩
  · exact .inr ⟨hpc, fun keys rnd => by simp only [stepEvent, h, hf]⟩

end Steps

/-! ### The fields an instruction ignores -/

section Overlays

/-- Values to put in place of the fields that most instructions ignore: `none` keeps a field. -/
structure Overlay where
  dt : Option Byte := none
  st : Option Byte := none
  keys : Option Word := none
  rnd : Option Byte := none
  tone : Option Bool := none
  rom : Option (List Byte) := none
  sound : Option (List SoundPulse) := none
  schedule : Option (List HostEvent) := none

/-- `s` with the values of `o`. -/
def Overlay.on (o : Overlay) (s : State) : State :=
  { s with
    dt := o.dt.getD s.dt
    st := o.st.getD s.st
    keys := o.keys.getD s.keys
    rnd := o.rnd.getD s.rnd
    tone := o.tone.getD s.tone
    rom := o.rom.getD s.rom
    sound := o.sound.getD s.sound
    schedule := o.schedule.getD s.schedule }

/-- `o` replaces no field that `i` reads or writes: `ST` is set-sound's, `DT` set-delay's and read-delay's, the ports are
those of the instructions that sample them (R25, R26, R36). -/
def Overlay.Unseen (o : Overlay) : Instr → Prop
  | .setSound _ => o.st = none
  | .setDelay _ | .readDelay _ => o.dt = none
  | .rnd _ _ => o.rnd = none
  | .skp _ | .sknp _ | .waitKey _ => o.keys = none
  | _ => True

/-- A function of states applied to the next state that an event answers. -/
def mapNext (f : State → State) : Result → Result
  | .next s => .next (f s)
  | .fault r => .fault r
  | .refused r => .refused r

variable (o : Overlay) (s : State)

/-- Ending an instruction commutes with an overlay when its result and its writes do. -/
theorem orRaise_on {α : Type} {r r' : Except Fatal α} (g : α → α) {k k' : α → State} (hr : r' = r.map g)
    (hk : ∀ a, k' (g a) = o.on (k a)) : orRaise r' (o.on s) k' = mapNext o.on (orRaise r s k) := by
  subst hr
  cases r with
  | ok a => exact congrArg Host.Outcome.next (hk a)
  | error f => rfl

theorem readBlock_on (base n : Nat) : readBlock (o.on s) base n = (readBlock s base n).map id := by
  simp [Except.map_id, readBlock, Overlay.on]

theorem writeBlock_on (base : Nat) (bytes : List Byte) :
    writeBlock (o.on s) base bytes = (writeBlock s base bytes).map o.on := by
  unfold writeBlock; split <;> rfl

theorem push_on (v : Word) : push (o.on s) v = (push s v).map o.on := by
  by_cases h : s.sp.val < 16
  · have hp : push s v = .ok _ := dif_pos h
    rw [hp]; exact dif_pos h
  · have hp : push s v = .error _ := dif_neg h
    rw [hp]; exact dif_neg h

theorem pop_on : pop (o.on s) = (pop s).map (Prod.map id o.on) := by
  by_cases h : 0 < s.sp.val
  · have hp : pop s = .ok _ := dif_pos h
    rw [hp]; exact dif_pos h
  · have hp : pop s = .error _ := dif_neg h
    rw [hp]; exact dif_neg h

variable {o} {i : Instr}

theorem on_keys (h : o.keys = none) : (o.on s).keys = s.keys := by simp only [Overlay.on, h, Option.getD_none]

/-- An instruction commutes with every overlay of fields it does not see. -/
theorem exec_on (h : o.Unseen i) : exec i (o.on s) = mapNext o.on (exec i s) := by
  cases i with
  | ret => exact orRaise_on o s _ (pop_on o s) fun _ => rfl
  | call nnn => exact orRaise_on o s _ (push_on o s _) fun _ => rfl
  | drw x y n => exact orRaise_on o s _ (readBlock_on o s _ _) fun _ => rfl
  | storeBcd x => exact orRaise_on o s _ (writeBlock_on o s _ _) fun _ => rfl
  | storeRegs x => exact orRaise_on o s _ (writeBlock_on o s _ _) fun _ => rfl
  | loadRegs x => exact orRaise_on o s _ (readBlock_on o s _ _) fun _ => rfl
  | setSound x => cases o; cases h; rfl
  | setDelay x => cases o; cases h; rfl
  | readDelay x => cases o; cases h; rfl
  | rnd x kk => cases o; cases h; rfl
  | skp x => cases o; cases h; rfl
  | sknp x => cases o; cases h; rfl
  | waitKey x =>
    simp only [exec, execWaitKey, on_keys s h]
    cases leastKey s.keys <;> rfl
  | _ => rfl

theorem exec_on_next {t : State} (h : o.Unseen i) (ht : exec i s = .next t) : exec i (o.on s) = .next (o.on t) := by
  rw [exec_on s h, ht]; rfl

theorem unseen_st (b : Byte) (h : ∀ x, i ≠ .setSound x) : ({ st := some b } : Overlay).Unseen i := by
  cases i with
  | setSound x => exact absurd rfl (h x)
  | _ => trivial

theorem unseen_dt (b : Byte) (hw : ∀ x, i ≠ .setDelay x) (hr : ∀ x, i ≠ .readDelay x) :
    ({ dt := some b } : Overlay).Unseen i := by
  cases i with
  | setDelay x => exact absurd rfl (hw x)
  | readDelay x => exact absurd rfl (hr x)
  | _ => trivial

theorem unseen_rnd (b : Byte) (h : ∀ x kk, i ≠ .rnd x kk) : ({ rnd := some b } : Overlay).Unseen i := by
  cases i with
  | rnd x kk => exact absurd rfl (h x kk)
  | _ => trivial

theorem unseen_keys (k : Word) (hp : ∀ x, i ≠ .skp x) (hn : ∀ x, i ≠ .sknp x) (hw : ∀ x, i ≠ .waitKey x) :
    ({ keys := some k } : Overlay).Unseen i := by
  cases i with
  | skp x => exact absurd rfl (hp x)
  | sknp x => exact absurd rfl (hn x)
  | waitKey x => exact absurd rfl (hw x)
  | _ => trivial

/-- What no instruction sees at all (R30, R32; logs 2 and 3). -/
theorem unseen_hidden (i : Instr) (c : Bool) (image : List Byte) (pulses : List SoundPulse) (events : List HostEvent) :
    Overlay.Unseen { tone := some c, rom := some image, sound := some pulses, schedule := some events } i := by
  cases i <;> trivial

end Overlays

/-- Settles O58: an overlay of `ST` is unseen by all but set-sound, one of `DT` by all but its two instructions. -/
theorem timersMatterOnlyToTheirInstructions : Obligations.TimersMatterOnlyToTheirInstructions :=
  fun _ s _ b ht => ⟨fun h => exec_on_next s (unseen_st b h) ht, fun hw hr => exec_on_next s (unseen_dt b hw hr) ht⟩

/-- Settles O59: an overlay of the hidden fields is unseen by every instruction. -/
theorem noInstructionUsesToneOrImage : Obligations.NoInstructionUsesToneOrImage :=
  fun i s _ c image pulses events ht => exec_on_next s (unseen_hidden i c image pulses events) ht

/-! ### The ports under a whole step -/

section Ports

variable {i : Instr} {s : State} {keys keys' : Word} {rnd rnd' : Byte}

theorem readsRnd_eq_false (h : ∀ x kk, i ≠ .rnd x kk) : readsRnd i = false := by
  cases i with
  | rnd x kk => exact absurd rfl (h x kk)
  | _ => rfl

theorem readsKeys_eq_false (hp : ∀ x, i ≠ .skp x) (hn : ∀ x, i ≠ .sknp x) (hw : ∀ x, i ≠ .waitKey x) :
    readsKeys i = false := by
  cases i with
  | skp x => exact absurd rfl (hp x)
  | sknp x => exact absurd rfl (hn x)
  | waitKey x => exact absurd rfl (hw x)
  | _ => rfl

/-- A step sees of the port levels only what its instruction samples. -/
theorem stepEvent_congr (h : s.samplePorts s.atPc keys rnd = s.samplePorts s.atPc keys' rnd') :
    stepEvent keys rnd s = stepEvent keys' rnd' s := by
  cases hrun : s.runState with
  | faulted => rw [stepEvent_faulted keys rnd hrun, stepEvent_faulted keys' rnd' hrun]
  | running =>
    rcases stepEvent_running hrun with ⟨-, he⟩ | ⟨-, he⟩
    · rw [he, he, h]
    · rw [he, he]

end Ports

/-- Settles O60: under `exec` by overlays of the two port fields, under a step because an instruction that does not read
a port does not sample it. -/
theorem portsMatterOnlyToTheirInstructions : Obligations.PortsMatterOnlyToTheirInstructions := by
  refine ⟨fun i s t keys rnd ht => ⟨fun h => exec_on_next s (unseen_rnd rnd h) ht,
    fun hp hn hw => exec_on_next s (unseen_keys keys hp hn hw) ht⟩, fun s i keys keys' rnd rnd' hi => ?_⟩
  subst hi
  refine ⟨fun h => stepEvent_congr ?_, fun hp hn hw => ⟨stepEvent_congr ?_, fun h => ?_⟩⟩
  · simp only [State.samplePorts, readsRnd_eq_false h, Bool.false_eq_true, if_false]
  · simp only [State.samplePorts, readsKeys_eq_false hp hn hw, Bool.false_eq_true, if_false]
  · exact samplePorts_eq_self s (readsKeys_eq_false hp hn hw) (readsRnd_eq_false h) keys rnd

/-! ### The state after reset -/

theorem font_getElem? {a : Nat} (h : a < 80) : Config.font[a]? = some (unlisted a) := by
  have ha : a < Config.font.length := h
  simp only [unlisted, List.getElem?_eq_getElem ha, List.getD_eq_getElem _ _ ha]

theorem unlisted_of_ge {a : Nat} (h : 80 ≤ a) : unlisted a = 0 := List.getD_eq_default _ _ h

/-- Settles O1: each clause reads one field of the literal state; memory is empty, so it reads as font and zeros. -/
theorem resetStateHoldsResetValues : Obligations.ResetStateHoldsResetValues :=
  ⟨fun _ => Vector.getElem_replicate _, rfl, rfl, rfl, rfl, rfl, fun _ => Vector.getElem_replicate _, clearFb_pixel,
    fun _ ha => font_getElem? ha, fun _ ha => unlisted_of_ge ha, rfl, rfl, rfl, rfl, rfl⟩

/-- Settles O19: memory, image and stack are empty, `PC` is `ENTRY`, and the record is clear. -/
theorem resetMeetsTheInvariant : Obligations.ResetMeetsTheInvariant where
  memory := ⟨.nil, nofun⟩
  image := Nat.zero_le _
  pcBound := by decide
  returns := fun k hk => absurd hk (Nat.not_lt_zero k)
  record := ⟨rfl, rfl⟩

/-! ### Every event keeps the invariant -/

section Invariant

variable {i : Instr} {s t : State}

theorem of_guarded_eq_some {c : Prop} [Decidable c] {f g : Fatal} (h : (if c then some f else none) = some g) :
    c ∧ f = g := by
  obtain ⟨hc, hf⟩ := Option.ite_none_right_eq_some.1 h
  exact ⟨hc, Option.some.inj hf⟩

/-- The table of R220 as its three kinds of condition; the longest transfer takes 16 bytes. -/
theorem fatalOf_cases {f : Fatal} (h : fatalOf i s = some f) :
    (f = ⟨.stackOverflow, 16⟩ ∧ s.sp.val = 16) ∨ (f = ⟨.stackUnderflow, 0⟩ ∧ s.sp.val = 0) ∨
    (f = memFatal s.i.toNat ∧ 0xFFF < s.i.toNat + 15) := by
  cases i with
  | call nnn =>
    obtain ⟨hd, rfl⟩ := of_guarded_eq_some h
    exact .inl ⟨rfl, hd⟩
  | ret =>
    obtain ⟨hd, rfl⟩ := of_guarded_eq_some h
    exact .inr (.inl ⟨rfl, hd⟩)
  | drw x y n =>
    obtain ⟨hm, rfl⟩ := of_guarded_eq_some h
    exact .inr (.inr ⟨rfl, by have := n.isLt; omega⟩)
  | storeBcd x =>
    obtain ⟨hm, rfl⟩ := of_guarded_eq_some h
    exact .inr (.inr ⟨rfl, by omega⟩)
  | storeRegs x =>
    obtain ⟨hm, rfl⟩ := of_guarded_eq_some h
    exact .inr (.inr ⟨rfl, by have := x.isLt; omega⟩)
  | loadRegs x =>
    obtain ⟨hm, rfl⟩ := of_guarded_eq_some h
    exact .inr (.inr ⟨rfl, by have := x.isLt; omega⟩)
  | _ => cases h

theorem memFatal_info_toNat (a : Word) : (memFatal a.toNat).info.toNat = max a.toNat 0x1000 := by
  have := a.isLt
  simp only [memFatal, Config.memSize, BitVec.toNat_ofNat]
  omega

/-- A condition of the table leaves a true record (R220). -/
theorem faultRecordOk_of_fatalOf {f : Fatal} (h : fatalOf i s = some f) : FaultRecordOk (s.raiseFatal f) := by
  rcases fatalOf_cases h with ⟨rfl, hd⟩ | ⟨rfl, hd⟩ | ⟨rfl, hm⟩
  · exact .inl ⟨rfl, rfl, Fin.ext hd⟩
  · exact .inr (.inl ⟨rfl, rfl, Fin.ext hd⟩)
  · exact .inr (.inr (.inr ⟨rfl, memFatal_info_toNat s.i, hm⟩))

/-- In `RUNNING` the record depends on nothing but itself. -/
theorem faultRecordOk_running (h : s.runState = .running) : FaultRecordOk s ↔ s.faultCode = 0 ∧ s.faultInfo = 0 := by
  simp only [FaultRecordOk, h]

/-- Taking a fatal condition keeps the rest of the invariant. -/
theorem Inv.raiseFatal {f : Fatal} (hs : Inv s) (hf : FaultRecordOk (s.raiseFatal f)) : Inv (s.raiseFatal f) where
  memory := hs.memory
  image := hs.image
  pcBound := hs.pcBound
  returns := hs.returns
  record := hf

/-! What an executed instruction does to each clause, by its effect. -/

theorem Effect.rom_eq (he : Effect s i t) : t.rom = s.rom := by cases he <;> rfl

theorem Effect.wf (he : Effect s i t) (hs : s.mem.wf) : t.mem.wf := by
  cases he with
  | store bytes _ hm => exact writeBytes_wf _ bytes hm hs
  | _ => exact hs

theorem pc_add_two_le (hpc : s.pc.toNat ≤ 0xFFE) : (s.pc + 2).toNat ≤ 0x1000 := by
  show (s.pc.toNat + 2) % 2 ^ 16 ≤ 0x1000
  omega

theorem pc_add_four_le (hpc : s.pc.toNat ≤ 0xFFE) : (s.pc + 4).toNat ≤ 0x1002 := by
  show (s.pc.toNat + 4) % 2 ^ 16 ≤ 0x1002
  omega

/-- A fetched instruction stands at most at 0xFFE, so what follows it is at most 0x1002; jump-v0 reaches
0xFFF + 0xFF (R24). -/
theorem Effect.pc_le (he : Effect s i t) (hs : Inv s) (hpc : s.pc.toNat ≤ 0xFFE) : t.pc.toNat ≤ 0x10FE := by
  cases he with
  | fault => exact hs.pcBound
  | idle => exact hs.pcBound
  | skip c =>
    cases c with
    | true => exact (pc_add_four_le hpc).trans (by decide)
    | false => exact (pc_add_two_le hpc).trans (by decide)
  | jp nnn =>
    have := nnn.isLt
    rw [setPc_pc, absAddr_toNat]; omega
  | call nnn =>
    have := nnn.isLt
    rw [setPc_pc, absAddr_toNat]; omega
  | jpV0 nnn =>
    have := nnn.isLt
    have := (s.reg 0).isLt
    rw [setPc_pc, BitVec.toNat_add, absAddr_toNat, zext16_toNat]; omega
  | ret hd =>
    have h := hs.returns ⟨s.sp.val - 1, by omega⟩ (by simp only; omega)
    exact h.trans (by decide)
  | _ => exact (pc_add_two_le hpc).trans (by decide)

/-- A pushed return address is at most 0x1000, and a pop uncovers no new entry (R24, R27). -/
theorem Effect.returns (he : Effect s i t) (hs : Inv s) (hpc : s.pc.toNat ≤ 0xFFE) :
    ∀ k : Fin 16, k.val < t.sp.val → t.stack[k].toNat ≤ 0x1000 := by
  cases he with
  | call nnn hd =>
    intro k hk
    simp only [setPc_stack, setStack_stack, setPc_sp, setStack_sp, Fin.getElem_fin, Vector.getElem_set] at hk ⊢
    split
    · exact pc_add_two_le hpc
    · exact hs.returns k (by omega)
  | ret hd => exact fun k hk => hs.returns k (lt_of_lt_of_le hk (Nat.sub_le _ _))
  | _ => exact hs.returns

theorem Effect.record (he : Effect s i t) (hs : FaultRecordOk s) (hrun : s.runState = .running) : FaultRecordOk t := by
  have hrec := (faultRecordOk_running hrun).1 hs
  cases he with
  | fault hf => exact faultRecordOk_of_fatalOf hf
  | _ => refine (faultRecordOk_running ?_).2 hrec; exact hrun

theorem Inv.of_effect (hs : Inv s) (hrun : s.runState = .running) (hpc : s.pc.toNat ≤ 0xFFE) (he : Effect s i t) :
    Inv t where
  memory := he.wf hs.memory
  image := he.rom_eq ▸ hs.image
  pcBound := he.pc_le hs hpc
  returns := he.returns hs hpc
  record := he.record hs.record hrun

/-! The events. -/

theorem Inv.setSchedule (hs : Inv s) (rest : List HostEvent) : Inv (s.setSchedule rest) :=
  ⟨hs.memory, hs.image, hs.pcBound, hs.returns, hs.record⟩

theorem Inv.samplePorts (hs : Inv s) (i : Instr) (keys : Word) (rnd : Byte) : Inv (s.samplePorts i keys rnd) :=
  ⟨hs.memory, hs.image, hs.pcBound, hs.returns, hs.record⟩

theorem Inv.tickEvent (hs : Inv s) : Inv (tickEvent s) :=
  ⟨hs.memory, hs.image, hs.pcBound, hs.returns, hs.record⟩

/-- An image within its bound ends at or below the end of memory (R6). -/
theorem writeImage_wf {m : Memory} {image : List Byte} (hm : m.wf) (hi : image.length ≤ Config.romMax) :
    (m.writeBytes Config.entry image).wf := by
  refine writeBytes_wf _ _ ?_ hm
  simp only [Config.romMax, Config.entry, Config.memSize] at hi ⊢
  omega

theorem Inv.resetEvent (hs : Inv s) : Inv (resetEvent s) where
  memory := writeImage_wf (writeBytes_wf 0 Config.font (by decide) hs.memory) hs.image
  image := hs.image
  pcBound := show (BitVec.ofNat 16 Config.entry).toNat ≤ 0x10FE by decide
  returns := fun k hk => absurd hk (Nat.not_lt_zero k)
  record := ⟨rfl, rfl⟩

theorem Inv.loadRomEvent (hs : Inv s) (bytes : List Byte) : Inv (loadRomEvent bytes s) := by
  unfold Machine.loadRomEvent
  split
  · rename_i hlen
    exact ⟨writeImage_wf hs.memory hlen, hlen, hs.pcBound, hs.returns, hs.record⟩
  · exact hs

theorem Inv.stepEvent {keys : Word} {rnd : Byte} (hs : Inv s) (h : stepEvent keys rnd s = .next t) : Inv t := by
  cases hrun : s.runState with
  | faulted =>
    rw [stepEvent_faulted keys rnd hrun] at h
    exact Host.Outcome.next.inj h ▸ hs
  | running =>
    rcases stepEvent_running hrun with ⟨hpc, he⟩ | ⟨hpc, he⟩
    · exact (hs.samplePorts s.atPc keys rnd).of_effect hrun hpc (effect_of_exec (he keys rnd ▸ h))
    · rw [he] at h
      exact Host.Outcome.next.inj h ▸ hs.raiseFatal (.inr (.inr (.inl ⟨rfl, rfl, hpc⟩)))

theorem Inv.hostEvent {e : HostEvent} (hs : Inv s) (h : hostEvent e s = .next t) : Inv t := by
  cases e with
  | step keys rnd => exact Inv.stepEvent hs h
  | tick => exact Host.Outcome.next.inj h ▸ hs.tickEvent
  | reset => exact Host.Outcome.next.inj h ▸ hs.resetEvent
  | loadRom bytes => exact Host.Outcome.next.inj h ▸ hs.loadRomEvent bytes

end Invariant

/-- Settles O18: taking the event off the schedule keeps the invariant, and so does each of the four events; a step that
executes keeps it clause by clause, whatever the instruction's effect. -/
theorem everyEventKeepsTheInvariant : Obligations.EveryEventKeepsTheInvariant :=
  fun s _ hs h => (hs.setSchedule (nextEvent s).2).hostEvent h

end Sys2Proof.Machine

/-! PROOFS about memory: which instructions write it, and that a fetch reads what it holds now. -/

namespace Sys2Proof.Machine

/-! ### Who writes memory -/

/-- Memory moves only under store-BCD and store-registers (R60). -/
theorem Effect.sameMemory {i : Instr} {s t : State} (h : Effect s i t) (hbcd : ∀ x, i ≠ .storeBcd x)
    (hregs : ∀ x, i ≠ .storeRegs x) : SameMemory s t := by
  cases h with
  | store _ hi =>
    rcases hi with ⟨x, hx⟩ | ⟨x, hx⟩
    · exact absurd hx (hbcd x)
    · exact absurd hx (hregs x)
  | _ => exact fun _ => rfl

/-- Settles O55: of all effects, only that of the two stores writes memory. -/
theorem onlyStoresWriteMemory : Obligations.OnlyStoresWriteMemory :=
  fun _ _ _ h hbcd hregs => (effect_of_exec h).sameMemory hbcd hregs

/-! ### What a fetch gives -/

/-- A fetch in range gives the word at `PC` (R66, R68). -/
theorem fetch16_ok {s : State} (h : s.pc.toNat ≤ 0xFFE) :
    fetch16 s = .ok (wordOfBytes (s.mem.read s.pc.toNat) (s.mem.read (s.pc.toNat + 1))) :=
  ((fetch16_cases s).resolve_right fun ⟨hpc, _⟩ => by omega).2

/-- Settles O8: the two cases of a fetch, and the step that takes each. -/
theorem fetchReadsBigEndianOrFaults : Obligations.FetchReadsBigEndianOrFaults := by
  refine fun s => ⟨fun hpc => ⟨_, fetch16_ok hpc, wordOfBytes_toNat _ _⟩, fun hpc hrun => ?_⟩
  rcases stepEvent_running hrun with ⟨hle, -⟩ | ⟨-, hstep⟩
  · exact absurd hle (Nat.not_le_of_lt hpc)
  · exact hstep

/-! ### A block store, and the fetch after it -/

section StoredBlock

variable {x : RegIdx} {s : State}

/-- A store-registers whose block lies in memory writes `V[0]` to `V[x]` from `I` on (R184). -/
theorem exec_storeRegs_of_inRange (h : s.i.toNat + x.val ≤ 0xFFF) :
    exec (.storeRegs x) s = .next (s.setMem (s.mem.writeBytes s.i.toNat (s.lowRegs x))).advance := by
  have hr : inRange (ea s 0) (s.lowRegs x).length = true := by
    rw [inRange_iff, ea_zero, length_lowRegs]
    omega
  exact orRaise_ok (writeBlock_ok hr)

/-- The byte `k` places into a stored block of registers is `V[k]`. -/
theorem read_writeBytes_lowRegs (hm : s.mem.wf) (h : s.i.toNat + x.val ≤ 0xFFF) {k : RegIdx} (hk : k ≤ x) :
    (s.mem.writeBytes s.i.toNat (s.lowRegs x)).read (s.i.toNat + k.val) = s.reg k := by
  have hlen := length_lowRegs s x
  have hin : k.val < (s.lowRegs x).length := hlen ▸ Nat.lt_succ_of_le hk
  have hend : s.i.toNat + (s.lowRegs x).length ≤ Config.memSize := by
    rw [hlen]
    exact Nat.succ_le_succ h
  rw [read_writeBytes_inside s.mem _ _ _ hin hend hm, getElem_lowRegs]

end StoredBlock

/-- Settles O43: the store leaves `PC` where the block begins, so the fetch reads the block's first two bytes. -/
theorem storesAreSeenByTheNextFetch : Obligations.StoresAreSeenByTheNextFetch := by
  intro x s hm _ hi hx hend
  refine ⟨_, exec_storeRegs_of_inRange hend, ?_⟩
  have hpc : (s.setMem (s.mem.writeBytes s.i.toNat (s.lowRegs x))).advance.pc = s.i := hi.symm
  rw [fetch16_ok (by rw [hpc]; omega), hpc]
  have h0 := read_writeBytes_lowRegs hm hend (Fin.zero_le x)
  have h1 := read_writeBytes_lowRegs hm hend (k := 1) hx
  exact congrArg₂ (fun hi lo => Except.ok (wordOfBytes hi lo)) h0 h1

end Sys2Proof.Machine

/-! PROOFS about the encoding: a word that selects a row of the opcode map decodes to that row, with its own fields as
the operands; every word selects the row it decodes to. -/

namespace Sys2Proof

/-! ### An instruction with the fields of a word -/

/-- The instruction of `i`'s row whose operands are the fields of `w` (R91, R101, R102). -/
def Instr.withFieldsOf (i : Instr) (w : Word) : Instr :=
  match i with
  | .cls => .cls
  | .ret => .ret
  | .jp _ => .jp (fieldNnn w)
  | .call _ => .call (fieldNnn w)
  | .seByte _ _ => .seByte (fieldX w) (fieldKk w)
  | .sneByte _ _ => .sneByte (fieldX w) (fieldKk w)
  | .seReg _ _ => .seReg (fieldX w) (fieldY w)
  | .ldByte _ _ => .ldByte (fieldX w) (fieldKk w)
  | .addByte _ _ => .addByte (fieldX w) (fieldKk w)
  | .ldReg _ _ => .ldReg (fieldX w) (fieldY w)
  | .orReg _ _ => .orReg (fieldX w) (fieldY w)
  | .andReg _ _ => .andReg (fieldX w) (fieldY w)
  | .xorReg _ _ => .xorReg (fieldX w) (fieldY w)
  | .addReg _ _ => .addReg (fieldX w) (fieldY w)
  | .sub _ _ => .sub (fieldX w) (fieldY w)
  | .shr _ => .shr (fieldX w)
  | .subn _ _ => .subn (fieldX w) (fieldY w)
  | .shl _ => .shl (fieldX w)
  | .sneReg _ _ => .sneReg (fieldX w) (fieldY w)
  | .ldI _ => .ldI (fieldNnn w)
  | .jpV0 _ => .jpV0 (fieldNnn w)
  | .rnd _ _ => .rnd (fieldX w) (fieldKk w)
  | .drw _ _ _ => .drw (fieldX w) (fieldY w) (fieldN w)
  | .skp _ => .skp (fieldX w)
  | .sknp _ => .sknp (fieldX w)
  | .readDelay _ => .readDelay (fieldX w)
  | .waitKey _ => .waitKey (fieldX w)
  | .setDelay _ => .setDelay (fieldX w)
  | .setSound _ => .setSound (fieldX w)
  | .addI _ => .addI (fieldX w)
  | .fontAddr _ => .fontAddr (fieldX w)
  | .storeBcd _ => .storeBcd (fieldX w)
  | .storeRegs _ => .storeRegs (fieldX w)
  | .loadRegs _ => .loadRegs (fieldX w)
  | .sys _ => .sys (fieldNnn w)
  | .unrec8 _ _ _ => .unrec8 (fieldX w) (fieldY w) (fieldN w)
  | .unrecE _ _ => .unrecE (fieldX w) (fieldKk w)
  | .unrecF _ _ => .unrecF (fieldX w) (fieldKk w)

@[simp] theorem rowOf_withFieldsOf (i : Instr) (w : Word) : rowOf (i.withFieldsOf w) = rowOf i := by cases i <;> rfl

@[simp] theorem recognized_withFieldsOf (i : Instr) (w : Word) : (i.withFieldsOf w).recognized = i.recognized := by
  cases i <;> rfl

/-- Only the rows of unrecognized words limit their operands (R102). -/
theorem Instr.wf_of_recognized {i : Instr} (h : i.recognized = true) : i.wf = true := by
  cases i with
  | sys | unrec8 | unrecE | unrecF => cases h
  | _ => rfl

/-- Each format puts its operands where the fields are read. -/
theorem withFieldsOf_encode (i : Instr) : i.withFieldsOf (encode i) = i := by
  cases i <;> simp [Instr.withFieldsOf, encode, formatNNN_fields, formatXKK_fields, formatXYN_fields]

open Laws in
/-- The rows of `Laws.EncodesRow` as one statement about every instruction. -/
theorem encode_selects_rowOf : ∀ i : Instr, selects (rowOf i).1 (rowOf i).2 (encode i)
  | .cls => EncodesRow.cls | .ret => EncodesRow.ret
  | .jp nnn => EncodesRow.jp nnn | .call nnn => EncodesRow.call nnn
  | .seByte x kk => EncodesRow.seByte x kk | .sneByte x kk => EncodesRow.sneByte x kk
  | .seReg x y => EncodesRow.seReg x y | .sneReg x y => EncodesRow.sneReg x y
  | .ldByte x kk => EncodesRow.ldByte x kk | .addByte x kk => EncodesRow.addByte x kk
  | .ldReg x y => EncodesRow.ldReg x y | .orReg x y => EncodesRow.orReg x y
  | .andReg x y => EncodesRow.andReg x y | .xorReg x y => EncodesRow.xorReg x y
  | .addReg x y => EncodesRow.addReg x y | .sub x y => EncodesRow.sub x y
  | .shr x => EncodesRow.shr x | .subn x y => EncodesRow.subn x y
  | .shl x => EncodesRow.shl x | .ldI nnn => EncodesRow.ldI nnn
  | .jpV0 nnn => EncodesRow.jpV0 nnn | .rnd x kk => EncodesRow.rnd x kk
  | .drw x y n => EncodesRow.drw x y n | .skp x => EncodesRow.skp x
  | .sknp x => EncodesRow.sknp x | .readDelay x => EncodesRow.readDelay x
  | .waitKey x => EncodesRow.waitKey x | .setDelay x => EncodesRow.setDelay x
  | .setSound x => EncodesRow.setSound x | .addI x => EncodesRow.addI x
  | .fontAddr x => EncodesRow.fontAddr x | .storeBcd x => EncodesRow.storeBcd x
  | .storeRegs x => EncodesRow.storeRegs x | .loadRegs x => EncodesRow.loadRegs x
  | .sys nnn => EncodesRow.sys nnn | .unrec8 x y n => EncodesRow.unrec8 x y n
  | .unrecE x kk => EncodesRow.unrecE x kk | .unrecF x kk => EncodesRow.unrecF x kk

/-! ### Dispatch, family by family (R94 to R98) -/

section Families

variable {w : Word}

/-! The four families that look beyond the top four bits. -/

theorem decodeWord_of_op_0 (h : fieldOp w = 0x0) : decodeWord w = decode0 w := by rw [decodeWord, h]; rfl
theorem decodeWord_of_op_8 (h : fieldOp w = 0x8) : decodeWord w = decode8 w := by rw [decodeWord, h]; rfl
theorem decodeWord_of_op_E (h : fieldOp w = 0xE) : decodeWord w = decodeE w := by rw [decodeWord, h]; rfl
theorem decodeWord_of_op_F (h : fieldOp w = 0xF) : decodeWord w = decodeF w := by rw [decodeWord, h]; rfl

/-- Within one family, the low twelve bits determine the word. -/
theorem fieldNnn_eq_iff {w' : Word} (ho : fieldOp w = fieldOp w') : fieldNnn w = fieldNnn w' ↔ w = w' :=
  ⟨word_ext_nnn ho, congrArg fieldNnn⟩

/-! What each row of unrecognized words excludes (R95 to R98, R102). -/

theorem sys_wf_iff (ho : fieldOp w = 0x0) :
    (Instr.sys (fieldNnn w)).wf = true ↔ w ≠ 0x00E0#16 ∧ w ≠ 0x00EE#16 := by
  have hcls : fieldNnn w = 0x0E0#12 ↔ w = 0x00E0#16 := fieldNnn_eq_iff (w' := 0x00E0#16) ho
  have hret : fieldNnn w = 0x0EE#12 ↔ w = 0x00EE#16 := fieldNnn_eq_iff (w' := 0x00EE#16) ho
  simp [Instr.wf, hcls, hret]

theorem unrec8_wf_iff {x y : RegIdx} {n : Nibble} :
    (Instr.unrec8 x y n).wf = true ↔ 7 < n.toNat ∧ n.toNat ≠ 0xE := by
  have hlist : n ∈ assigned8 ↔ n.toNat ≤ 7 ∨ n.toNat = 0xE := by
    simp [assigned8, ← BitVec.toNat_inj]
    omega
  simp [Instr.wf, hlist]

theorem unrecE_wf_iff {x : RegIdx} {kk : Byte} : (Instr.unrecE x kk).wf = true ↔ kk ≠ 0x9E#8 ∧ kk ≠ 0xA1#8 := by
  simp [Instr.wf, assignedE]

theorem unrecF_wf_iff {x : RegIdx} {kk : Byte} : (Instr.unrecF x kk).wf = true ↔ kk ∉ assignedF := by
  simp [Instr.wf]

/-! With operands its row may hold, a word of these families falls through to the row of unrecognized words. -/

theorem decode0_of_wf (ho : fieldOp w = 0x0) (h : (Instr.sys (fieldNnn w)).wf = true) :
    decode0 w = .sys (fieldNnn w) := by
  obtain ⟨hcls, hret⟩ := (sys_wf_iff ho).1 h
  rw [decode0, if_neg hcls, if_neg hret]

theorem decode8_of_wf {x y : RegIdx} (h : (Instr.unrec8 x y (fieldN w)).wf = true) :
    decode8 w = .unrec8 (fieldX w) (fieldY w) (fieldN w) := by
  rw [unrec8_wf_iff] at h
  unfold decode8
  split
  case h_10 => rfl
  all_goals omega

theorem decodeE_of_wf {x : RegIdx} (h : (Instr.unrecE x (fieldKk w)).wf = true) :
    decodeE w = .unrecE (fieldX w) (fieldKk w) := by
  obtain ⟨hskp, hsknp⟩ := unrecE_wf_iff.1 h
  rw [decodeE, if_neg hskp, if_neg hsknp]

theorem decodeF_of_wf {x : RegIdx} (h : (Instr.unrecF x (fieldKk w)).wf = true) :
    decodeF w = .unrecF (fieldX w) (fieldKk w) := by
  have hne := unrecF_wf_iff.1 h
  simp [assignedF] at hne
  simp [decodeF, hne]

end Families

/-! ### A word that selects a row decodes to it -/

/-- A word that selects a row which may hold it decodes to that row, its operands read from its fields (R91, R101). -/
theorem decodeWord_of_selects {i : Instr} {w : Word} (hs : selects (rowOf i).1 (rowOf i).2 w)
    (hwf : (i.withFieldsOf w).wf = true) : decodeWord w = i.withFieldsOf w := by
  cases i <;> dsimp only [rowOf] at hs
  case cls | ret => exact congrArg decodeWord (eq_of_selects_all hs)
  all_goals have ho := fieldOp_of_selects hs rfl
  case sys => exact (decodeWord_of_op_0 ho).trans (decode0_of_wf ho hwf)
  case unrec8 => exact (decodeWord_of_op_8 ho).trans (decode8_of_wf hwf)
  case unrecE => exact (decodeWord_of_op_E ho).trans (decodeE_of_wf hwf)
  case unrecF => exact (decodeWord_of_op_F ho).trans (decodeF_of_wf hwf)
  case ldReg | orReg | andReg | xorReg | addReg | sub | shr | subn | shl =>
    rw [decodeWord_of_op_8 ho, decode8, fieldN_of_selects hs rfl]; rfl
  case skp | sknp =>
    rw [decodeWord_of_op_E ho, decodeE, fieldKk_of_selects hs rfl]; rfl
  case readDelay | waitKey | setDelay | setSound | addI | fontAddr | storeBcd | storeRegs | loadRegs =>
    rw [decodeWord_of_op_F ho, decodeF, fieldKk_of_selects hs rfl]; rfl
  all_goals rw [decodeWord, ho]; rfl

/-- Every recognized row of the opcode map encodes its instruction, whatever the operands (R101). -/
theorem encodes_rowOf {i : Instr} (h : i.recognized = true) :
    Machine.Encodes (rowOf i).1 (rowOf i).2 i.withFieldsOf := fun w hs =>
  decodeWord_of_selects hs (Instr.wf_of_recognized (recognized_withFieldsOf i w ▸ h))

/-- Words that select one instruction row decode alike when they give it the same operands. -/
theorem decodeWord_congr {i : Instr} (hi : i.recognized = true) {w w' : Word} (hs : selects (rowOf i).1 (rowOf i).2 w)
    (hs' : selects (rowOf i).1 (rowOf i).2 w') (h : i.withFieldsOf w = i.withFieldsOf w') :
    decodeWord w = decodeWord w' :=
  (encodes_rowOf hi w hs).trans (h.trans (encodes_rowOf hi w' hs').symm)

/-- Settles O20: the encoded word selects the instruction's row, and its fields are the instruction's operands. -/
theorem decodeOfEncode : Obligations.DecodeOfEncode := fun i hi => by
  have hf := withFieldsOf_encode i
  rw [decodeWord_of_selects (encode_selects_rowOf i) (hf.symm ▸ hi), hf]

/-! ### Every word selects the row it decodes to -/

/-- The word selects the instruction's row, and the row may hold it. -/
structure Fits (w : Word) (i : Instr) : Prop where
  selects_row : selects (rowOf i).1 (rowOf i).2 w
  wf : i.wf = true

section Rows

variable {w : Word} {i : Instr} {mask mat : Word}

theorem Fits.of_row (hr : rowOf i = (mask, mat)) (hs : selects mask mat w) (hwf : i.wf = true) : Fits w i :=
  ⟨by rwa [hr], hwf⟩

theorem fits_decode0 (ho : fieldOp w = 0x0) : Fits w (decode0 w) := by
  unfold decode0
  split_ifs with hcls hret
  · exact .of_row rfl (hcls ▸ rfl) rfl
  · exact .of_row rfl (hret ▸ rfl) rfl
  · exact .of_row rfl (selects_of_op ho rfl) ((sys_wf_iff ho).2 ⟨hcls, hret⟩)

theorem fits_decode8 (ho : fieldOp w = 0x8) : Fits w (decode8 w) := by
  unfold decode8
  split <;> rename_i hn
  case h_10 =>
    simp only [imp_false] at *
    exact .of_row rfl (selects_of_op ho rfl) (unrec8_wf_iff.2 (by omega))
  all_goals exact .of_row rfl (selects_of_op_n ho (BitVec.eq_of_toNat_eq hn) rfl) rfl

theorem fits_decodeE (ho : fieldOp w = 0xE) : Fits w (decodeE w) := by
  unfold decodeE
  split_ifs with hskp hsknp
  · exact .of_row rfl (selects_of_op_kk ho hskp rfl) rfl
  · exact .of_row rfl (selects_of_op_kk ho hsknp rfl) rfl
  · exact .of_row rfl (selects_of_op ho rfl) (unrecE_wf_iff.2 ⟨hskp, hsknp⟩)

theorem fits_decodeF (ho : fieldOp w = 0xF) : Fits w (decodeF w) := by
  unfold decodeF
  split_ifs
  case neg => exact .of_row rfl (selects_of_op ho rfl) (unrecF_wf_iff.2 (by simp [assignedF, *]))
  all_goals exact .of_row rfl (selects_of_op_kk ho ‹_› rfl) rfl

theorem fits_decodeWord (w : Word) : Fits w (decodeWord w) := by
  unfold decodeWord
  split <;> rename_i ho
  case h_1 => exact fits_decode0 (BitVec.eq_of_toNat_eq ho)
  case h_9 => exact fits_decode8 (BitVec.eq_of_toNat_eq ho)
  case h_15 => exact fits_decodeE (BitVec.eq_of_toNat_eq ho)
  case h_16 =>
    have hlt := (fieldOp w).isLt
    have hF : (fieldOp w).toNat = 0xF := by simp only [imp_false] at *; omega
    exact fits_decodeF (BitVec.eq_of_toNat_eq hF)
  all_goals exact .of_row rfl (selects_of_op (BitVec.eq_of_toNat_eq ho) rfl) rfl

end Rows

/-- Settles O21: every decoded instruction fits its word, and every instruction row encodes its instruction. -/
theorem decodingFollowsTheOpcodeMap : Obligations.DecodingFollowsTheOpcodeMap :=
  ⟨fun w => ⟨(fits_decodeWord w).selects_row, (fits_decodeWord w).wf⟩,
    fun w i hi hs => by rw [encodes_rowOf hi w hs, rowOf_withFieldsOf]⟩

/-- Settles O22: both words select one row that keeps none of the ignored bits as an operand. -/
theorem ignoredFieldsDoNotMatter : Obligations.IgnoredFieldsDoNotMatter := by
  intro w w' ho hx
  refine ⟨fun hop hy => ?_, fun hop hn hnib => ?_⟩
  · rcases hop with h5 | h9
    · exact decodeWord_congr (i := .seReg 0 0) rfl (selects_of_op h5 rfl) (selects_of_op (ho ▸ h5) rfl)
        (congrArg₂ Instr.seReg hx hy)
    · exact decodeWord_congr (i := .sneReg 0 0) rfl (selects_of_op h9 rfl) (selects_of_op (ho ▸ h9) rfl)
        (congrArg₂ Instr.sneReg hx hy)
  · rcases hnib with h6 | hE
    · exact decodeWord_congr (i := .shr 0) rfl (selects_of_op_n hop h6 rfl)
        (selects_of_op_n (ho ▸ hop) (hn ▸ h6) rfl) (congrArg Instr.shr hx)
    · exact decodeWord_congr (i := .shl 0) rfl (selects_of_op_n hop hE rfl)
        (selects_of_op_n (ho ▸ hop) (hn ▸ hE) rfl) (congrArg Instr.shl hx)

/-- Settles O23: each clause decodes one literal word. -/
theorem sampleWordsDecode : Obligations.SampleWordsDecode := by
  unfold Obligations.SampleWordsDecode
  decide

end Sys2Proof

/-! PROOFS about the cycle driver: the schedule, what a step answers, and the tick. -/

namespace Sys2Proof.Machine

/-! ### The host's schedule -/

section Schedule

variable {s : State}

/-- A scheduled event is raised on the state that has the rest of the schedule (R120). -/
theorem step_of_schedule_cons {e : HostEvent} {rest : List HostEvent} (h : s.schedule = e :: rest) :
    step s = hostEvent e (s.setSchedule rest) := by
  simp only [step, runNextEvent, nextEvent, h]

/-- With nothing scheduled the host raises `step` with the next free levels on the ports (logs 2 and 3). -/
theorem step_of_schedule_nil (h : s.schedule = []) :
    step s = stepEvent (Config.keysInput s.samples) (Config.rndInput s.samples) s := by
  have hs : s.setSchedule [] = s := by rw [← h]; rfl
  simp only [step, runNextEvent, nextEvent, h, hs, hostEvent]

end Schedule

/-- Settles O11: the four kinds of event at the head of the schedule. -/
theorem scheduledEventsHappenInOrder : Obligations.ScheduledEventsHappenInOrder :=
  fun _ _ => ⟨step_of_schedule_cons, step_of_schedule_cons, fun _ => step_of_schedule_cons,
    fun _ _ => step_of_schedule_cons⟩

/-- Settles O9: the driver tests the executor's state before it fetches (R128). -/
theorem faultedStepChangesNothing : Obligations.FaultedStepChangesNothing :=
  fun _ hf => ⟨fun keys rnd => stepEvent_faulted keys rnd hf,
    fun hnil => (step_of_schedule_nil hnil).trans (stepEvent_faulted _ _ hf)⟩

/-! ### A step in `RUNNING` -/

section RunningStep

variable {i : Instr} {s t : State} {keys : Word} {rnd : Byte}

/-- With `PC` in range, a running step executes the instruction at `PC` (R122). -/
theorem stepEvent_of_atPc (hrun : s.runState = .running) (hpc : s.pc.toNat ≤ 0xFFE) (hi : s.atPc = i) :
    stepEvent keys rnd s = exec i (s.samplePorts i keys rnd) := by
  subst hi
  exact ((stepEvent_running hrun).resolve_right fun ⟨hout, _⟩ => by omega).2 keys rnd

theorem decodeWord_of_decode {hi lo : Byte} (h : decode [hi, lo] = .ok (i, [])) :
    decodeWord (wordOfBytes hi lo) = i :=
  congrArg Prod.fst (Except.ok.inj h)

/-- An effect that ends `FAULTED` from `RUNNING` is the taking of a condition of the table of R220. -/
theorem Effect.eq_raiseFatal (he : Effect s i t) (hrun : s.runState = .running) (hf : t.runState = .faulted) :
    ∃ f, fatalOf i s = some f ∧ t = s.raiseFatal f := by
  cases he with
  | fault h => exact ⟨_, h, rfl⟩
  | _ =>
    have hkept : s.runState = .faulted := hf
    rw [hrun] at hkept
    cases hkept

/-- A step that ends `FAULTED` from `RUNNING` raised a fatal condition in the state it found, which has sampled no port
(R127). -/
theorem stepEvent_eq_raiseFatal (hrun : s.runState = .running) (h : stepEvent keys rnd s = .next t)
    (hf : t.runState = .faulted) : ∃ f, t = s.raiseFatal f := by
  rcases stepEvent_running hrun with ⟨-, hexec⟩ | ⟨-, hfetch⟩
  · obtain ⟨f, hfatal, rfl⟩ := (effect_of_exec ((hexec keys rnd).symm.trans h)).eq_raiseFatal hrun hf
    rw [fatalOf_samplePorts] at hfatal
    exact ⟨f, by rw [samplePorts_of_fatalOf hfatal]⟩
  · exact ⟨_, (Host.Outcome.next.inj ((hfetch keys rnd).symm.trans h)).symm⟩

end RunningStep

/-- Settles O7: both the scripted and the free step execute the instruction at `PC`, which no schedule moves. -/
theorem stepRunsDecodedInstruction : Obligations.StepRunsDecodedInstruction := by
  intro s i hrun hpc _ hdec
  have hi : s.atPc = i := decodeWord_of_decode hdec
  refine ⟨fun hnil => ?_, fun keys rnd rest hcons => ?_⟩
  · rw [step_of_schedule_nil hnil, stepEvent_of_atPc hrun hpc hi]
  · rw [step_of_schedule_cons hcons]
    exact stepEvent_of_atPc (s := s.setSchedule rest) hrun hpc hi

/-- Settles O16: taking a fatal condition writes the fault record alone. -/
theorem faultsArePrecise : Obligations.FaultsArePrecise := by
  intro keys rnd s t hrun h hf
  obtain ⟨f, rfl⟩ := stepEvent_eq_raiseFatal hrun h hf
  rfl

/-! ### Every event answers -/

theorem stepEvent_answers (keys : Word) (rnd : Byte) (s : State) : ∃ t, stepEvent keys rnd s = .next t := by
  cases hrun : s.runState with
  | faulted => exact ⟨s, stepEvent_faulted keys rnd hrun⟩
  | running =>
    rcases stepEvent_running hrun with ⟨-, hexec⟩ | ⟨-, hfetch⟩
    · obtain ⟨t, ht, -⟩ := exec_effect s.atPc (s.samplePorts s.atPc keys rnd)
      exact ⟨t, (hexec keys rnd).trans ht⟩
    · exact ⟨_, hfetch keys rnd⟩

theorem hostEvent_answers (e : HostEvent) (s : State) : ∃ t, hostEvent e s = .next t := by
  cases e with
  | step keys rnd => exact stepEvent_answers keys rnd s
  | tick => exact ⟨_, rfl⟩
  | reset => exact ⟨_, rfl⟩
  | loadRom bytes => exact ⟨_, rfl⟩

/-- Settles O17: the event the host raises next is one of four, and each answers. -/
theorem everyEventAnswersANextState : Obligations.EveryEventAnswersANextState := fun _ => hostEvent_answers _ _

/-! ### The next `PC` -/

section NextPc

variable {i : Instr} {s t : State}

/-- The fixed point of a self-jump (R132, R141). -/
theorem exec_jp_self {nnn : Addr12} (h : nnn.toNat = s.pc.toNat) : exec (.jp nnn) s = .next s := by
  have hpc : absAddr nnn = s.pc := BitVec.eq_of_toNat_eq ((absAddr_toNat nnn).trans h)
  show Host.Outcome.next (s.setPc (absAddr nnn)) = .next s
  rw [hpc]
  rfl

/-- wait-key polls while no key is down (R203). -/
theorem exec_waitKey_idle {x : RegIdx} (h : s.keys = 0) : exec (.waitKey x) s = .next s := by
  simp only [exec, execWaitKey, (leastKey_eq_none s.keys).2 h]

theorem isSkip_eq_false (hseb : ∀ x kk, i ≠ .seByte x kk) (hsneb : ∀ x kk, i ≠ .sneByte x kk)
    (hser : ∀ x y, i ≠ .seReg x y) (hsner : ∀ x y, i ≠ .sneReg x y) (hskp : ∀ x, i ≠ .skp x)
    (hsknp : ∀ x, i ≠ .sknp x) : isSkip i = false := by
  cases i with
  | seByte x kk => exact absurd rfl (hseb x kk)
  | sneByte x kk => exact absurd rfl (hsneb x kk)
  | seReg x y => exact absurd rfl (hser x y)
  | sneReg x y => exact absurd rfl (hsner x y)
  | skp x => exact absurd rfl (hskp x)
  | sknp x => exact absurd rfl (hsknp x)
  | _ => rfl

/-- Every effect but a fault, a transfer, a skip and an idle wait goes on at `PC + 2` (R125). -/
theorem Effect.pc_eq_add_two (he : Effect s i t) (hf : fatalOf i s = none) (hskip : isSkip i = false) (hret : i ≠ .ret)
    (hjp : ∀ nnn, i ≠ .jp nnn) (hcall : ∀ nnn, i ≠ .call nnn) (hjpV0 : ∀ nnn, i ≠ .jpV0 nnn)
    (hwait : ∀ x, i ≠ .waitKey x) : t.pc = s.pc + 2 := by
  cases he with
  | fault hfatal => rw [hf] at hfatal; cases hfatal
  | skip c hi => rw [hskip] at hi; cases hi
  | idle x => exact absurd rfl (hwait x)
  | jp nnn => exact absurd rfl (hjp nnn)
  | jpV0 nnn => exact absurd rfl (hjpV0 nnn)
  | call nnn => exact absurd rfl (hcall nnn)
  | ret => exact absurd rfl hret
  | _ => rfl

end NextPc

/-- Settles O52: the instruction at `PC` is executed on a state that has sampled nothing for the jump, and no key for
wait-key. -/
theorem selfJumpAndIdleWaitAreFixedPoints : Obligations.SelfJumpAndIdleWaitAreFixedPoints := by
  refine fun s keys rnd hrun hpc => ⟨fun nnn hself hi => ?_, fun x hi => ?_⟩
  · rw [stepEvent_of_atPc hrun hpc hi]
    exact exec_jp_self hself
  · rw [stepEvent_of_atPc hrun hpc hi]
    exact exec_waitKey_idle rfl

/-- Settles O53: no excepted instruction and no fault, so the effect is one that advances. -/
theorem ordinaryInstructionsAdvanceByTwo : Obligations.OrdinaryInstructionsAdvanceByTwo :=
  fun _ _ _ hf h hret hjp hcall hjpV0 hseb hsneb hser hsner hskp hsknp hwait =>
    (effect_of_exec h).pc_eq_add_two hf (isSkip_eq_false hseb hsneb hser hsner hskp hsknp) hret hjp hcall hjpV0 hwait

/-! ### The tick -/

section Tick

variable {s : State}

@[simp] theorem tickEvent_dt (s : State) : (tickEvent s).dt = decTimer s.dt := rfl
@[simp] theorem tickEvent_st (s : State) : (tickEvent s).st = decTimer s.st := rfl
@[simp] theorem tickEvent_sound (s : State) : (tickEvent s).sound = s.sound ++ tickPulses s := rfl

/-- The tick starts a tone that the sound timer asks for and that is not on (R129). -/
theorem toneStarts_eq (s : State) : s.toneStarts = (decide (0 < s.st.toNat) && !s.tone) := by
  have h : (s.st != 0) = decide (0 < s.st.toNat) := by
    rw [Bool.eq_iff_iff, bne_iff_ne, decide_eq_true_iff, Nat.pos_iff_ne_zero, BitVec.toNat_ne]
    rfl
  rw [State.toneStarts, h]

/-- The tick stops a tone whose sound timer runs out, one it has just started included (R129). -/
theorem toneStops_eq (s : State) :
    s.toneStops = (decide (s.st.toNat ≤ 1) && (s.tone || decide (0 < s.st.toNat))) := by
  have h : (decTimer s.st == 0) = decide (s.st.toNat ≤ 1) := by
    rw [Bool.eq_iff_iff, beq_iff_eq, decide_eq_true_iff, ← BitVec.toNat_inj, decTimer_toNat]
    exact Nat.sub_eq_zero_iff_le
  rw [State.toneStops, h, toneStarts_eq]
  cases s.tone <;> simp

/-- Whatever `TONE` was, a tick leaves it on exactly when the sound timer stays above 0 (R130). -/
theorem tickEvent_tone (s : State) : (tickEvent s).tone = decide (1 < s.st.toNat) := by
  show ((s.tone || s.toneStarts) && !s.toneStops) = decide (1 < s.st.toNat)
  rw [toneStarts_eq, toneStops_eq]
  rcases Nat.lt_or_ge 1 s.st.toNat with hlt | hle
  · simp [hlt, Nat.zero_lt_of_lt hlt]
  · cases s.tone <;> simp [hle]

/-! The pulses, by the sound timer that the tick finds (R129). -/

theorem tickPulses_of_st_zero (h : s.st = 0) : tickPulses s = if s.tone then [.stop] else [] := by
  simp [tickPulses, toneStarts_eq, toneStops_eq, h]

theorem tickPulses_of_st_one (h : s.st = 1) : tickPulses s = if s.tone then [.stop] else [.start, .stop] := by
  cases ht : s.tone <;> simp [tickPulses, toneStarts_eq, toneStops_eq, h, ht]

theorem tickPulses_of_one_lt_st (h : 1 < s.st.toNat) : tickPulses s = if s.tone then [] else [.start] := by
  cases ht : s.tone <;> simp [tickPulses, toneStarts_eq, toneStops_eq, h, ht, Nat.zero_lt_of_lt h]

end Tick

/-- Settles O5: the timers are decremented, and each of the six cases reads off the tone and the pulses. -/
theorem tickMovesTimersAndTone : Obligations.TickMovesTimersAndTone := by
  intro s
  refine ⟨decTimer_toNat _, decTimer_toNat _, fun hst ht => ?_, fun hst ht => ?_, fun hst ht => ?_, fun hst ht => ?_,
    fun hst ht => ?_, fun hst ht => ?_, rfl⟩
  case refine_1 | refine_2 => simp [tickEvent_tone, tickPulses_of_st_zero, hst, ht]
  case refine_3 | refine_4 => simp [tickEvent_tone, tickPulses_of_st_one, hst, ht]
  case refine_5 | refine_6 => simp [tickEvent_tone, tickPulses_of_one_lt_st, hst, ht]

/-- Settles O6: a tick that leaves `TONE` at 0 leaves the sound timer at 0, where the next one has nothing to send. -/
theorem toneFollowsSoundTimerAfterTick : Obligations.ToneFollowsSoundTimerAfterTick := by
  intro s
  have htone : (tickEvent s).tone = true ↔ 0 < (tickEvent s).st.toNat := by
    rw [tickEvent_tone, decide_eq_true_iff, tickEvent_st, decTimer_toNat]
    omega
  refine ⟨htone, fun hoff => ?_⟩
  have hst : (tickEvent s).st = 0 := by
    have h : ¬ 0 < (tickEvent s).st.toNat := fun hpos => absurd (htone.2 hpos) (by simp [hoff])
    exact BitVec.eq_of_toNat_eq (Nat.eq_zero_of_not_pos h)
  rw [tickEvent_sound (tickEvent s), tickPulses_of_st_zero hst, hoff]
  exact List.append_nil _

end Sys2Proof.Machine

/-! PROOFS about control transfer: where jump, call, return and the register skips go, and what they leave alone. -/

namespace Sys2Proof.Machine

section Flow

variable {i : Instr} {s : State}

/-! ### Call and return, on each side of their guard (R140, R142, R221, R222) -/

theorem exec_call_of_lt {nnn : Addr12} (hd : s.sp.val < 16) :
    exec (.call nnn) s =
      .next ((s.setStack (s.stack.set s.sp.val (s.pc + 2)) ⟨s.sp.val + 1, by omega⟩).setPc (absAddr nnn)) := by
  rcases push_cases s (s.pc + 2) with ⟨_, hp⟩ | ⟨hfull, -⟩
  · exact orRaise_ok hp
  · exact absurd hd (by rw [hfull]; decide)

theorem exec_call_of_full {nnn : Addr12} (hd : s.sp = 16) :
    exec (.call nnn) s = .next (s.raiseFatal ⟨.stackOverflow, 16⟩) := by
  rcases push_cases s (s.pc + 2) with ⟨hlt, -⟩ | ⟨-, hp⟩
  · exact absurd hlt (by rw [hd]; decide)
  · exact orRaise_error hp

theorem exec_ret_of_pos (hd : 0 < s.sp.val) :
    exec .ret s =
      .next ((s.setStack s.stack ⟨s.sp.val - 1, by omega⟩).setPc s.stack[s.sp.val - 1]) := by
  rcases pop_cases s with ⟨_, hp⟩ | ⟨hempty, -⟩
  · exact orRaise_ok hp
  · exact absurd hd (by rw [hempty]; decide)

theorem exec_ret_of_empty (hd : s.sp = 0) : exec .ret s = .next (s.raiseFatal ⟨.stackUnderflow, 0⟩) := by
  rcases pop_cases s with ⟨hpos, -⟩ | ⟨-, hp⟩
  · exact absurd hpos (by rw [hd]; decide)
  · exact orRaise_error hp

/-- A frame relative to a state with another stack is, but for the stack, a frame relative to the state itself. -/
theorem RegisterFrame.but_stack {rs : List RegIdx} {entries : Vector Word 16} {depth : Fin 17} {t : State}
    (h : RegisterFrame rs (s.setStack entries depth) t) :
    SameRegsExcept rs s t ∧ t.i = s.i ∧ SameTimers s t ∧ SameMemory s t ∧ SamePixels s t ∧ SameHidden s t := by
  obtain ⟨hregs, hi, htimers, -, hmem, hpixels, hhidden⟩ := h
  exact ⟨hregs, hi, htimers, hmem, hpixels, hhidden⟩

/-! ### The common skip rule (R148) -/

/-- A skip whose test says `p` goes to `PC + 4` exactly when `p` holds. -/
theorem exec_skip_if {c : Bool} {p : Prop} [Decidable p] (h : exec i s = .next (s.skipIf c)) (hc : c = true ↔ p) :
    ∃ t, exec i s = .next t ∧ t.pc = (if p then s.pc + 4 else s.pc + 2) ∧ RegisterFrame [] s t :=
  ⟨s.skipIf c, h, if_congr hc rfl rfl, frame_setPc s _⟩

/-- A skip whose test says that `p` fails goes to `PC + 2` exactly when `p` holds. -/
theorem exec_skip_unless {c : Bool} {p : Prop} [Decidable p] (h : exec i s = .next (s.skipIf c))
    (hc : c = true ↔ ¬ p) :
    ∃ t, exec i s = .next t ∧ t.pc = (if p then s.pc + 2 else s.pc + 4) ∧ RegisterFrame [] s t := by
  rw [← ite_not]
  exact exec_skip_if h hc

end Flow

/-- Settles O32: the word's own row, and an absolute address zero-extended into `PC`. -/
theorem jumpSetsPc : Obligations.JumpSetsPc :=
  ⟨encodes_rowOf (i := .jp 0) rfl, fun nnn s => ⟨_, rfl, absAddr_toNat nnn, frame_setPc s _⟩⟩

/-- Settles O33: a 12-bit address and a byte add up below 65536, so the 16-bit sum does not wrap. -/
theorem jumpV0AddsRegisterZero : Obligations.JumpV0AddsRegisterZero := by
  refine ⟨encodes_rowOf (i := .jpV0 0) rfl, fun nnn s => ⟨_, rfl, ?_, frame_setPc s _⟩⟩
  have hnnn := nnn.isLt
  have hreg := (s.reg 0).isLt
  rw [setPc_pc, BitVec.toNat_add, absAddr_toNat, zext16_toNat]
  exact Nat.mod_eq_of_lt (by omega)

/-- Settles O34: the push is accepted below depth 16 and refused at it. -/
theorem callPushesReturnAddress : Obligations.CallPushesReturnAddress := by
  refine ⟨encodes_rowOf (i := .call 0) rfl, fun nnn s => ⟨fun hd => ?_, exec_call_of_full⟩⟩
  refine ⟨_, exec_call_of_lt hd, absAddr_toNat nnn, rfl, fun k => ?_, (frame_setPc _ _).but_stack⟩
  simp only [setPc_stack, setStack_stack, Fin.getElem_fin, Vector.getElem_set, eq_comm]

/-- Settles O35: the pop is accepted above depth 0 and refused at it; it writes no entry. -/
theorem returnPopsIntoPc : Obligations.ReturnPopsIntoPc := by
  refine ⟨encodes_rowOf (i := .ret) rfl, fun s => ⟨fun hd => ?_, exec_ret_of_empty⟩⟩
  refine ⟨_, exec_ret_of_pos hd, Nat.sub_add_cancel hd, fun k hk => ?_, fun _ => rfl,
    (frame_setPc _ _).but_stack⟩
  simp only [setPc_pc, ← hk, Nat.add_sub_cancel, Fin.getElem_fin]

/-- Settles O36: return pops the entry that call has just pushed. -/
theorem callThenReturnComesBack : Obligations.CallThenReturnComesBack := by
  intro nnn s hd
  refine ⟨_, _, exec_call_of_lt hd, exec_ret_of_pos (Nat.succ_pos _), ?_, rfl⟩
  exact Vector.getElem_set_self hd

/-- Settles O37: each skip tests an equality of two bytes or its failure. -/
theorem registerSkipsChooseNextPc : Obligations.RegisterSkipsChooseNextPc :=
  ⟨encodes_rowOf (i := .seByte 0 0) rfl, encodes_rowOf (i := .sneByte 0 0) rfl, encodes_rowOf (i := .seReg 0 0) rfl,
    encodes_rowOf (i := .sneReg 0 0) rfl, fun _ _ _ _ =>
      ⟨exec_skip_if rfl beq_iff_eq, exec_skip_unless rfl bne_iff_ne, exec_skip_if rfl beq_iff_eq,
        exec_skip_unless rfl bne_iff_ne⟩⟩

end Sys2Proof.Machine

/-! PROOFS about the register loads and the ALU: what each writes to its register and to `VF`, in which order, and that
it leaves the rest alone. -/

namespace Sys2Proof.Machine

section LoadAlu

variable {s : State} {x : RegIdx}

/-! ### The two orders of writing a register and `VF` (R133, R173) -/

/-- Of a result written first and a flag second, the result stands in every register but `VF` (R166). -/
theorem setReg_setReg_vf_reg {flag result : Byte} (hx : x ≠ 15) :
    ((s.setReg x result).setReg vf flag).reg x = result :=
  (setReg_reg_other _ flag hx).trans (setReg_reg_same _ x result)

@[simp] theorem flagThenResult_pc (flag result : Byte) : (flagThenResult s x flag result).pc = s.pc + 2 := rfl

/-- The result is written last, so it stands in `V[x]`, `VF` included (R167 to R170). -/
@[simp] theorem flagThenResult_reg_same (flag result : Byte) : (flagThenResult s x flag result).reg x = result :=
  setReg_reg_same _ x result

/-- The result overwrites the flag only in `VF` itself. -/
theorem flagThenResult_reg_vf {flag result : Byte} (hx : x ≠ 15) : (flagThenResult s x flag result).reg 15 = flag :=
  (setReg_reg_other _ result hx.symm).trans (setReg_reg_same _ vf flag)

theorem frame_flagThenResult (s : State) (x : RegIdx) (flag result : Byte) :
    RegisterFrame [x, 15] s (flagThenResult s x flag result) :=
  (frame_setReg_setReg s vf x flag result).mono (List.Perm.swap x vf []).subset

end LoadAlu

/-! ### The byte operations as numbers -/

theorem byte_sub_toNat (a b : Byte) : (a - b).toNat = (a.toNat + 256 - b.toNat) % 256 := by
  have hb := b.isLt
  rw [BitVec.toNat_sub]
  omega

theorem byte_shiftRight_one_toNat (a : Byte) : (a >>> 1).toNat = a.toNat / 2 := by
  rw [BitVec.toNat_ushiftRight, Nat.shiftRight_one]

theorem byte_shiftLeft_one_toNat (a : Byte) : (a <<< 1).toNat = a.toNat * 2 % 256 := by
  rw [BitVec.toNat_shiftLeft, Nat.shiftLeft_eq]

/-! ### Loads and bitwise operations: one register, no flag -/

/-- Settles O24: the only register written is `V[x]`. -/
theorem loadByteSetsRegister : Obligations.LoadByteSetsRegister :=
  ⟨encodes_rowOf (i := .ldByte 0 0) rfl, fun x kk s => ⟨_, rfl, setReg_reg_same s x kk, rfl, frame_setReg s x kk⟩⟩

/-- Settles O25: the sum of two bytes is taken modulo 256, and no write follows that of `V[x]`. -/
theorem addByteWrapsAndSetsNoFlag : Obligations.AddByteWrapsAndSetsNoFlag := by
  refine ⟨encodes_rowOf (i := .addByte 0 0) rfl, fun x kk s => ⟨_, rfl, ?_, rfl, frame_setReg s x _⟩⟩
  rw [advance_reg, setReg_reg_same, BitVec.toNat_add]

/-- Settles O26: `V[y]` is read before `V[x]` is written. -/
theorem loadRegCopies : Obligations.LoadRegCopies :=
  ⟨encodes_rowOf (i := .ldReg 0 0) rfl, fun x y s =>
    ⟨_, rfl, setReg_reg_same s x (s.reg y), rfl, frame_setReg s x _⟩⟩

/-- Settles O27: each bit of the byte written is the operation on the operands' bits. -/
theorem logicIsBitwiseAndSetsNoFlag : Obligations.LogicIsBitwiseAndSetsNoFlag := by
  refine ⟨encodes_rowOf (i := .orReg 0 0) rfl, encodes_rowOf (i := .andReg 0 0) rfl,
    encodes_rowOf (i := .xorReg 0 0) rfl, fun x y s =>
      ⟨⟨_, rfl, fun k _ => ?_, rfl, frame_setReg s x _⟩, ⟨_, rfl, fun k _ => ?_, rfl, frame_setReg s x _⟩,
        ⟨_, rfl, fun k _ => ?_, rfl, frame_setReg s x _⟩⟩⟩
  · rw [advance_reg, setReg_reg_same, BitVec.getLsbD_or]
  · rw [advance_reg, setReg_reg_same, BitVec.getLsbD_and]
  · rw [advance_reg, setReg_reg_same, BitVec.getLsbD_xor]

/-- Settles O31: the byte masked is whatever stands on the port. -/
theorem randomMasksTheDrawnByte : Obligations.RandomMasksTheDrawnByte := by
  refine ⟨encodes_rowOf (i := .rnd 0 0) rfl, fun x kk s => ⟨_, rfl, fun k _ => ?_, rfl, frame_setReg s x _⟩⟩
  rw [advance_reg, setReg_reg_same, BitVec.getLsbD_and]

/-! ### Arithmetic and shifts: a register and `VF` -/

/-- Settles O28: the carry is written after the sum, so it stands in `VF` for every `x` (R166). -/
theorem addRegSetsSumAndCarry : Obligations.AddRegSetsSumAndCarry := by
  refine ⟨encodes_rowOf (i := .addReg 0 0) rfl, fun x y s =>
    ⟨_, rfl, fun hx => ?_, ?_, rfl, frame_setReg_setReg s x vf _ _⟩⟩
  · rw [advance_reg, setReg_setReg_vf_reg hx, BitVec.toNat_add]
  · exact (setReg_reg_same _ vf _).trans (carryFlag_eq _ _)

/-- sub and subn write a strict flag first and a difference second; they differ in the order of the operands. -/
theorem exec_of_subtract {i : Instr} {s : State} {x : RegIdx} {a b : Byte}
    (h : exec i s = .next (flagThenResult s x (greaterFlag a b) (a - b))) :
    ∃ t, exec i s = .next t ∧ (t.reg x).toNat = (a.toNat + 256 - b.toNat) % 256 ∧
      (x ≠ 15 → t.reg 15 = (if b.toNat < a.toNat then 1 else 0)) ∧ t.pc = s.pc + 2 ∧ RegisterFrame [x, 15] s t := by
  refine ⟨_, h, ?_, fun hx => ?_, rfl, frame_flagThenResult s x _ _⟩
  · rw [flagThenResult_reg_same, byte_sub_toNat]
  · rw [flagThenResult_reg_vf hx, greaterFlag_eq]

/-- Settles O29: both are a subtraction of one of the two registers from the other. -/
theorem subtractSetsDifferenceAndStrictFlag : Obligations.SubtractSetsDifferenceAndStrictFlag :=
  ⟨encodes_rowOf (i := .sub 0 0) rfl, encodes_rowOf (i := .subn 0 0) rfl, fun _ _ _ =>
    ⟨exec_of_subtract rfl, exec_of_subtract rfl⟩⟩

/-- Settles O30: the flag is the bit shifted out, and the shifted byte is written after it. -/
theorem shiftsMoveOneBitIntoTheFlag : Obligations.ShiftsMoveOneBitIntoTheFlag := by
  refine ⟨encodes_rowOf (i := .shr 0) rfl, encodes_rowOf (i := .shl 0) rfl, fun x s =>
    ⟨⟨_, rfl, ?_, fun hx => ?_, rfl, frame_flagThenResult s x _ _⟩,
      ⟨_, rfl, ?_, fun hx => ?_, rfl, frame_flagThenResult s x _ _⟩⟩⟩
  · rw [flagThenResult_reg_same, byte_shiftRight_one_toNat]
  · rw [flagThenResult_reg_vf hx, shrFlag_toNat]
  · rw [flagThenResult_reg_same, byte_shiftLeft_one_toNat]
  · rw [flagThenResult_reg_vf hx, shlFlag_toNat]

end Sys2Proof.Machine

/-! PROOFS about the address register and the memory transfers: which instructions set `I`, which bytes or registers a
transfer moves, and the picture of a glyph that font-address and draw show together. -/

namespace Sys2Proof.Machine

/-! ### The address register (R180 to R182, R186) -/

section Index

variable {i : Instr} {s t : State}

/-- `I` moves only under load-I, add-to-I and font-address (R22, R186). -/
theorem Effect.i_eq (h : Effect s i t) (hldI : ∀ nnn, i ≠ .ldI nnn) (haddI : ∀ x, i ≠ .addI x)
    (hfont : ∀ x, i ≠ .fontAddr x) : t.i = s.i := by
  cases h with
  | index _ hi =>
    rcases hi with ⟨nnn, hx⟩ | ⟨x, hx⟩ | ⟨x, hx⟩
    · exact absurd hx (hldI nnn)
    · exact absurd hx (haddI x)
    · exact absurd hx (hfont x)
  | _ => rfl

/-- An instruction that writes `I` and advances leaves everything else alone. -/
theorem exec_of_setI {a : Word} {n : Nat} (h : exec i s = .next (s.setI a).advance) (ha : a.toNat = n) :
    ∃ t, exec i s = .next t ∧ t.i.toNat = n ∧ t.pc = s.pc + 2 ∧
      SameRegsExcept [] s t ∧ SameTimers s t ∧ SameStack s t ∧ SameMemory s t ∧ SamePixels s t ∧ SameHidden s t :=
  ⟨_, h, ha, rfl, fun _ _ => rfl, ⟨rfl, rfl⟩, ⟨rfl, fun _ => rfl⟩, fun _ => rfl, fun _ _ => rfl,
    ⟨rfl, rfl, rfl, rfl, rfl, rfl, rfl, rfl, rfl, rfl⟩⟩

end Index

/-- Settles O38: each writes `I` alone; only the sum of add-to-I can wrap. -/
theorem addressRegisterInstructionsSetI : Obligations.AddressRegisterInstructionsSetI := by
  refine ⟨encodes_rowOf (i := .ldI 0) rfl, encodes_rowOf (i := .addI 0) rfl, encodes_rowOf (i := .fontAddr 0) rfl,
    fun nnn x s => ⟨exec_of_setI rfl (absAddr_toNat nnn), exec_of_setI rfl ?_, exec_of_setI rfl (glyphAddr_toNat _)⟩⟩
  rw [BitVec.toNat_add, zext16_toNat]

/-- Settles O56: of all effects, only that of the three address-register instructions writes `I`. -/
theorem onlyThreeInstructionsChangeI : Obligations.OnlyThreeInstructionsChangeI :=
  fun _ _ _ h hldI haddI hfont => (effect_of_exec h).i_eq hldI haddI hfont

/-! ### A transfer on each side of its bounds check (R63, R64, R80) -/

section Transfers

variable {s : State} {x : RegIdx}

theorem orRaise_writeBlock_of_le {bytes : List Byte} {k : State → State} (h : s.i.toNat + bytes.length ≤ 0x1000) :
    orRaise (writeBlock s (ea s 0) bytes) s k = .next (k (s.setMem (s.mem.writeBytes s.i.toNat bytes))) :=
  orRaise_ok (writeBlock_ok ((inRange_iff _ _).2 (.inr h)))

theorem orRaise_writeBlock_of_lt {bytes : List Byte} {k : State → State} (hlen : 0 < bytes.length)
    (h : 0x1000 < s.i.toNat + bytes.length) :
    orRaise (writeBlock s (ea s 0) bytes) s k = .next (s.raiseFatal (memFatal s.i.toNat)) := by
  refine orRaise_error (writeBlock_error ?_)
  rw [inRange_iff, ea_zero]
  omega

theorem orRaise_readBlock_of_le {n : Nat} {k : List Byte → State} (h : n = 0 ∨ s.i.toNat + n ≤ 0x1000) :
    orRaise (readBlock s (ea s 0) n) s k = .next (k (s.mem.bytesAt s.i.toNat n)) :=
  orRaise_ok (readBlock_ok ((inRange_iff _ _).2 h))

theorem orRaise_readBlock_of_lt {n : Nat} {k : List Byte → State} (hn : 0 < n) (h : 0x1000 < s.i.toNat + n) :
    orRaise (readBlock s (ea s 0) n) s k = .next (s.raiseFatal (memFatal s.i.toNat)) := by
  refine orRaise_error (readBlock_error ?_)
  rw [inRange_iff, ea_zero]
  omega

/-! ### Stores -/

/-- `s` after a store of `bytes` from `I` on, `PC` advanced (R183, R184). -/
def State.stored (s : State) (bytes : List Byte) : State := (s.setMem (s.mem.writeBytes s.i.toNat bytes)).advance

@[simp] theorem stored_i (s : State) (bytes : List Byte) : (s.stored bytes).i = s.i := rfl

/-- A store leaves every byte outside its block alone, and everything else but `PC`. -/
theorem frame_stored (s : State) (bytes : List Byte) :
    SameMemoryOutside (ea s 0) bytes.length s (s.stored bytes) ∧ (s.stored bytes).pc = s.pc + 2 ∧
      SameRegsExcept [] s (s.stored bytes) ∧ (s.stored bytes).i = s.i ∧ SameTimers s (s.stored bytes) ∧
      SameStack s (s.stored bytes) ∧ SamePixels s (s.stored bytes) ∧ SameHidden s (s.stored bytes) :=
  ⟨fun a ha => read_writeBytes_outside s.mem s.i.toNat a bytes ha, rfl, fun _ _ => rfl, rfl, ⟨rfl, rfl⟩,
    ⟨rfl, fun _ => rfl⟩, fun _ _ => rfl, ⟨rfl, rfl, rfl, rfl, rfl, rfl, rfl, rfl, rfl, rfl⟩⟩

theorem exec_storeBcd_of_le (h : s.i.toNat ≤ 0xFFD) :
    exec (.storeBcd x) s = .next (s.stored (bcdDigits (s.reg x))) :=
  orRaise_writeBlock_of_le (Nat.add_le_add_right h 3)

theorem exec_storeBcd_of_lt (h : 0xFFD < s.i.toNat) :
    exec (.storeBcd x) s = .next (s.raiseFatal (memFatal s.i.toNat)) :=
  orRaise_writeBlock_of_lt (Nat.succ_pos 2) (Nat.add_lt_add_right h 3)

theorem exec_storeRegs_of_lt (h : 0xFFF < s.i.toNat + x.val) :
    exec (.storeRegs x) s = .next (s.raiseFatal (memFatal s.i.toNat)) := by
  refine orRaise_writeBlock_of_lt ?_ ?_ <;> rw [length_lowRegs] <;> omega

/-- The three bytes that a store-BCD writes are the digits, the hundreds first (R183). -/
theorem read_stored_bcdDigits (b : Byte) (hm : s.mem.wf) (h : s.i.toNat ≤ 0xFFD) {k : Nat} (hk : k < 3) :
    (s.stored (bcdDigits b)).mem.read (ea s k) = (bcdDigits b)[k] :=
  read_writeBytes_inside s.mem s.i.toNat k (bcdDigits b) hk (Nat.add_le_add_right h 3) hm

/-- No digit of a byte wraps when it is stored as a byte. -/
theorem bcdDigits_toNat (b : Byte) :
    (bcdDigits b)[0].toNat = b.toNat / 100 ∧ (bcdDigits b)[1].toNat = b.toNat / 10 % 10 ∧
      (bcdDigits b)[2].toNat = b.toNat % 10 := by
  have hb := b.isLt
  refine ⟨Nat.mod_eq_of_lt ?_, Nat.mod_eq_of_lt ?_, Nat.mod_eq_of_lt ?_⟩ <;> omega

/-! ### Loads -/

/-- `s` after a load of `V[0]` to `V[x]` from `I` on, `PC` advanced (R185). -/
def State.loaded (s : State) (x : RegIdx) : State := (s.setLowRegs (s.mem.bytesAt s.i.toNat (x.val + 1))).advance

theorem exec_loadRegs_of_le (h : s.i.toNat + x.val ≤ 0xFFF) : exec (.loadRegs x) s = .next (s.loaded x) :=
  orRaise_readBlock_of_le (.inr (Nat.succ_le_succ h))

theorem exec_loadRegs_of_lt (h : 0xFFF < s.i.toNat + x.val) :
    exec (.loadRegs x) s = .next (s.raiseFatal (memFatal s.i.toNat)) :=
  orRaise_readBlock_of_lt (Nat.succ_pos _) (Nat.succ_lt_succ h)

theorem loaded_reg_of_le (s : State) {k : RegIdx} (hk : k ≤ x) : (s.loaded x).reg k = s.mem.read (ea s k.val) := by
  rw [State.loaded, advance_reg, setLowRegs_reg, getD_bytesAt _ _ _ _ _ (Nat.lt_succ_of_le hk)]
  rfl

theorem loaded_reg_of_lt (s : State) {k : RegIdx} (hk : x < k) : (s.loaded x).reg k = s.reg k := by
  rw [State.loaded, advance_reg, setLowRegs_reg, List.getD_eq_default _ _ ((length_bytesAt _ _ _).trans_le hk)]

/-- Writing low registers and advancing leaves everything but registers and `PC` alone. -/
theorem frame_setLowRegs (s : State) (bytes : List Byte) :
    (s.setLowRegs bytes).advance.pc = s.pc + 2 ∧ (s.setLowRegs bytes).advance.i = s.i ∧
      SameTimers s (s.setLowRegs bytes).advance ∧ SameStack s (s.setLowRegs bytes).advance ∧
      SameMemory s (s.setLowRegs bytes).advance ∧ SamePixels s (s.setLowRegs bytes).advance ∧
      SameHidden s (s.setLowRegs bytes).advance := by
  simp [SameTimers, SameStack, SameMemory, SamePixels, SameHidden]

end Transfers

/-- Settles O39: the block check lets all three digits through or none, and each is read back where it was written. -/
theorem storeBcdWritesThreeDigits : Obligations.StoreBcdWritesThreeDigits := by
  refine ⟨encodes_rowOf (i := .storeBcd 0) rfl, fun x s hm => ⟨fun h => ?_, exec_storeBcd_of_lt⟩⟩
  obtain ⟨hundreds, tens, ones⟩ := bcdDigits_toNat (s.reg x)
  refine ⟨_, exec_storeBcd_of_le h, ?_, ?_, ?_, frame_stored s (bcdDigits (s.reg x))⟩
  · rw [read_stored_bcdDigits _ hm h (by decide), hundreds]
  · rw [read_stored_bcdDigits _ hm h (by decide), tens]
  · rw [read_stored_bcdDigits _ hm h (by decide), ones]

/-- Settles O40: the block is `x + 1` registers long, and each is read back where it was written. -/
theorem storeRegistersWritesTheBlock : Obligations.StoreRegistersWritesTheBlock := by
  refine ⟨encodes_rowOf (i := .storeRegs 0) rfl, fun x s hm => ⟨fun h => ?_, exec_storeRegs_of_lt⟩⟩
  have hframe := frame_stored s (s.lowRegs x)
  rw [length_lowRegs] at hframe
  exact ⟨_, exec_storeRegs_of_inRange h, fun k hk => read_writeBytes_lowRegs hm h hk, hframe⟩

/-- Settles O41: a register below the block's length is the byte at its place, and any other keeps its value. -/
theorem loadRegistersReadsTheBlock : Obligations.LoadRegistersReadsTheBlock := by
  refine ⟨encodes_rowOf (i := .loadRegs 0) rfl, fun x s => ⟨fun h => ?_, exec_loadRegs_of_lt⟩⟩
  exact ⟨_, exec_loadRegs_of_le h, fun _ => loaded_reg_of_le s, fun _ => loaded_reg_of_lt s, frame_setLowRegs s _⟩

/-- Settles O42: the load finds `I` where the store left it, so it reads back the very bytes stored. -/
theorem storeThenLoadRestoresRegisters : Obligations.StoreThenLoadRestoresRegisters := by
  intro x s hm h
  let t := s.stored (s.lowRegs x)
  have hi : t.i = s.i := stored_i s _
  have hload : exec (.loadRegs x) t = .next (t.loaded x) := exec_loadRegs_of_le (by rwa [hi])
  refine ⟨t, t.loaded x, exec_storeRegs_of_inRange h, hload, fun k _ => ?_⟩
  rcases le_or_gt k x with hk | hk
  · exact (loaded_reg_of_le t hk).trans (read_writeBytes_lowRegs hm h hk)
  · exact loaded_reg_of_lt t hk

/-! ### What a draw leaves in each pixel (R191, R192) -/

section Drawing

variable {cx cy : Nat} {row : Fin 32} {col : Fin 64}

/-- Columns less than a screen's width apart land on different columns of the screen. -/
theorem wrapCol_inj {c c' : Nat} (hc : c < c' + 64) (hc' : c' < c + 64) : wrapCol cx c = wrapCol cx c' ↔ c = c' := by
  simp only [wrapCol, Fin.mk.injEq]
  omega

/-- Rows less than a screen's height apart land on different rows of the screen. -/
theorem wrapRow_inj {r r' : Nat} (hr : r < r' + 32) (hr' : r' < r + 32) : wrapRow cy r = wrapRow cy r' ↔ r = r' := by
  simp only [wrapRow, Fin.mk.injEq]
  omega

/-- A set bit among the first `n` columns of the sprite row `b` lands on the column `col`. -/
def rowCovers (cx : Nat) (b : Byte) (n : Nat) (col : Fin 64) : Bool :=
  (List.range n).any fun c => b.getLsbD (7 - c) && decide (wrapCol cx c = col)

/-- A set bit of a sprite whose rows count from number `r` on lands on a pixel. -/
def rowsCover (cx cy : Nat) (rows : List Byte) (r : Nat) (row : Fin 32) (col : Fin 64) : Bool :=
  (rows.zipIdx r).any fun p => decide (wrapRow cy p.2 = row) && rowCovers cx p.1 8 col

theorem rowCovers_iff {b : Byte} {n : Nat} :
    rowCovers cx b n col = true ↔ ∃ c < n, b.getLsbD (7 - c) = true ∧ wrapCol cx c = col := by
  simp [rowCovers]

theorem rowCovers_succ (b : Byte) (n : Nat) :
    rowCovers cx b (n + 1) col = (rowCovers cx b n col || (b.getLsbD (7 - n) && decide (wrapCol cx n = col))) := by
  simp [rowCovers, List.range_succ]

theorem rowsCover_iff {rows : List Byte} {r : Nat} :
    rowsCover cx cy rows r row col = true ↔
      ∃ k b, rows[k]? = some b ∧ wrapRow cy (r + k) = row ∧ rowCovers cx b 8 col = true := by
  simp only [rowsCover, List.any_eq_true, Prod.exists, Bool.and_eq_true, decide_eq_true_eq,
    List.mk_mem_zipIdx_iff_le_and_getElem?_sub]
  constructor
  · rintro ⟨b, k, ⟨hk, hb⟩, hrow, hcol⟩
    exact ⟨k - r, b, hb, by rwa [Nat.add_sub_cancel' hk], hcol⟩
  · rintro ⟨k, b, hb, hrow, hcol⟩
    exact ⟨b, r + k, ⟨Nat.le_add_right r k, by rwa [Nat.add_sub_cancel_left]⟩, hrow, hcol⟩

/-- The first `n` columns of a sprite row land on different columns of the screen, so each pixel is inverted at most
once. -/
theorem foldl_plot_pixel (b : Byte) (r : Nat) (d : Blit) {n : Nat} (hn : n ≤ 64) :
    ((List.range n).foldl (plot cx cy b r) d).fb[row][col] =
      (d.fb[row][col] ^^ (decide (wrapRow cy r = row) && rowCovers cx b n col)) := by
  induction n with
  | zero => simp [rowCovers]
  | succ n ih =>
    rw [List.range_succ, List.foldl_append, List.foldl_cons, List.foldl_nil, plot_pixel, ih (Nat.le_of_succ_le hn),
      rowCovers_succ, Bool.xor_assoc]
    by_cases hc : wrapCol cx n = col
    · have hnone : rowCovers cx b n col = false := by
        rw [Bool.eq_false_iff, Ne, rowCovers_iff]
        rintro ⟨c, hlt, -, hc'⟩
        have := (wrapCol_inj (by omega) (by omega)).1 (hc'.trans hc.symm)
        omega
      simp [hnone, hc, Bool.and_comm]
    · simp [hc]

/-- The rows of a sprite land on different rows of the screen, so each pixel is inverted at most once. -/
theorem blitRows_pixel (rows : List Byte) (r : Nat) (d : Blit) (hlen : rows.length ≤ 32) :
    (blitRows cx cy rows r d).fb[row][col] = (d.fb[row][col] ^^ rowsCover cx cy rows r row col) := by
  induction rows generalizing r d with
  | nil => simp [blitRows, rowsCover]
  | cons b rows ih =>
    rw [List.length_cons] at hlen
    have hcons : rowsCover cx cy (b :: rows) r row col =
        (decide (wrapRow cy r = row) && rowCovers cx b 8 col || rowsCover cx cy rows (r + 1) row col) := rfl
    rw [blitRows, ih _ _ (Nat.le_of_succ_le hlen), blitRow, foldl_plot_pixel _ _ _ (by decide), hcons, Bool.xor_assoc]
    by_cases hr : wrapRow cy r = row
    · have hnone : rowsCover cx cy rows (r + 1) row col = false := by
        rw [Bool.eq_false_iff, Ne, rowsCover_iff]
        rintro ⟨k, b', hk, hr', -⟩
        have hlt := (List.getElem?_eq_some_iff.1 hk).1
        have := (wrapRow_inj (by omega) (by omega)).1 (hr'.trans hr.symm)
        omega
      simp [hnone]
    · simp [hr]

/-! ### The draw instruction -/

variable {s : State} {x y : RegIdx} {n : Nibble}

/-- The blit of a draw of `n` rows from `I` on at column `V[x]` and row `V[y]` (R191). -/
def State.blit (s : State) (x y : RegIdx) (n : Nibble) : Blit :=
  blitRows (s.reg x).toNat (s.reg y).toNat (s.mem.bytesAt s.i.toNat n.toNat) 0 ⟨s.fb, false⟩

theorem exec_drw_of_le (h : n.toNat = 0 ∨ s.i.toNat + n.toNat ≤ 0x1000) :
    exec (.drw x y n) s = .next ((s.setFb (s.blit x y n).fb).setReg vf (flagByte (s.blit x y n).hit)).advance :=
  orRaise_readBlock_of_le h

/-- The rows read from memory cover the pixels of the statement's sprite. -/
theorem rowsCover_bytesAt :
    rowsCover (s.reg x).toNat (s.reg y).toNat (s.mem.bytesAt s.i.toNat n.toNat) 0 row col = true ↔
      SpriteCovers s x y n row col := by
  rw [rowsCover_iff]
  constructor
  · rintro ⟨r, b, hb, hrow, hcovers⟩
    have hr : r < n.toNat := length_bytesAt s.mem s.i.toNat n.toNat ▸ (List.getElem?_eq_some_iff.1 hb).1
    obtain ⟨c, hc, hbit, hcol⟩ := rowCovers_iff.1 hcovers
    rw [getElem?_bytesAt _ _ _ _ hr] at hb
    cases hb
    rw [Nat.zero_add] at hrow
    exact ⟨r, hr, c, hc, hbit, congrArg Fin.val hrow.symm, congrArg Fin.val hcol.symm⟩
  · rintro ⟨r, hr, c, hc, hbit, hrow, hcol⟩
    refine ⟨r, _, getElem?_bytesAt _ _ _ _ hr, ?_, rowCovers_iff.2 ⟨c, hc, hbit, (Fin.ext hcol).symm⟩⟩
    rw [Nat.zero_add]
    exact (Fin.ext hrow).symm

/-- A draw inverts exactly the pixels its sprite covers (R191, R192). -/
theorem blit_pixel :
    (s.blit x y n).fb[row][col] = true ↔ ¬ (s.pixel row col = true ↔ SpriteCovers s x y n row col) := by
  have hn := n.isLt
  rw [State.blit, blitRows_pixel _ _ _ (by rw [length_bytesAt]; omega), Bool.xor_iff_ne, Ne, Bool.eq_iff_iff,
    rowsCover_bytesAt]
  rfl

/-- On a pixel where row `r` and column `c` of a sprite land, nothing else of it does. -/
theorem spriteCovers_iff {r c : Nat} (hr : r < n.toNat) (hc : c < 8) (hrow : row.val = ((s.reg y).toNat + r) % 32)
    (hcol : col.val = ((s.reg x).toNat + c) % 64) :
    SpriteCovers s x y n row col ↔ (s.mem.read (s.i.toNat + r)).getLsbD (7 - c) = true := by
  have hn := n.isLt
  refine ⟨?_, fun hbit => ⟨r, hr, c, hc, hbit, hrow, hcol⟩⟩
  rintro ⟨r', hr', c', hc', hbit, hrow', hcol'⟩
  obtain rfl : r' = r := by omega
  obtain rfl : c' = c := by omega
  exact hbit

/-- A pixel after a draw, where row `r` and column `c` of its sprite land (R191). -/
theorem blit_pixel_of_lands {r c : Nat} (hr : r < n.toNat) (hc : c < 8)
    (hrow : row.val = ((s.reg y).toNat + r) % 32) (hcol : col.val = ((s.reg x).toNat + c) % 64) :
    (s.blit x y n).fb[row][col] = (s.pixel row col ^^ (s.mem.read (s.i.toNat + r)).getLsbD (7 - c)) := by
  rw [Bool.eq_iff_iff, blit_pixel, spriteCovers_iff hr hc hrow hcol, Bool.xor_iff_ne]
  exact not_congr Bool.eq_iff_iff.symm

end Drawing

/-- Settles O47: `I` is five times a number below 16, so the five rows drawn are bytes of the font in memory. -/
theorem fontAddressThenDrawShowsTheGlyph : Obligations.FontAddressThenDrawShowsTheGlyph := by
  intro x a b s hfont hx
  let t := (s.setI (glyphAddr (s.reg x))).advance
  have hi : t.i.toNat = (s.reg x).toNat * 5 := glyphAddr_toNat _
  have hend : t.i.toNat + 5 ≤ 0x1000 := by omega
  refine ⟨t, _, rfl, exec_drw_of_le (.inr hend), fun r c row col hr hc hrow hcol => ?_⟩
  have hglyph : Config.font.getD ((s.reg x).toNat * 5 + r) 0 = s.mem.read ((s.reg x).toNat * 5 + r) := by
    rw [List.getD_eq_getElem?_getD, hfont _ (by omega), Option.getD_some]
  rw [hglyph, ← hi]
  exact blit_pixel_of_lands (s := t) hr hc hrow hcol

end Sys2Proof.Machine

/-! PROOFS about the display: what clear-screen and draw leave in each pixel and in `VF`, and that drawing twice undoes
itself. -/

namespace Sys2Proof.Machine

/-! ### When a blit turns a pixel off (R191) -/

section Collision

variable {cx cy : Nat}

/-- The first `n` columns of a sprite row leave the place of column `n` free. -/
theorem rowCovers_wrapCol_self {b : Byte} {n : Nat} (hn : n < 64) : rowCovers cx b n (wrapCol cx n) = false := by
  rw [Bool.eq_false_iff, Ne, rowCovers_iff]
  rintro ⟨c, hc, -, hcol⟩
  exact hc.ne ((wrapCol_inj (by omega) (by omega)).1 hcol)

/-- What sprite rows from number `r + 1` on cover does not lie where row `r` lands. -/
theorem wrapRow_ne_of_rowsCover {rows : List Byte} {r : Nat} {row : Fin 32} {col : Fin 64} (hlen : rows.length < 32)
    (h : rowsCover cx cy rows (r + 1) row col = true) : wrapRow cy r ≠ row := by
  obtain ⟨k, b, hk, hrow, -⟩ := rowsCover_iff.1 h
  have hlt := (List.getElem?_eq_some_iff.1 hk).1
  intro hr
  have := (wrapRow_inj (by omega) (by omega)).1 (hr.trans hrow.symm)
  omega

theorem rowsCover_cons_iff {b : Byte} {rows : List Byte} {r : Nat} {row : Fin 32} {col : Fin 64} :
    rowsCover cx cy (b :: rows) r row col = true ↔
      (wrapRow cy r = row ∧ rowCovers cx b 8 col = true) ∨ rowsCover cx cy rows (r + 1) row col = true := by
  simp [rowsCover]

/-- A sprite row turns a pixel off exactly when it covers a pixel that was on before the row: no column before it has
touched that pixel. -/
theorem foldl_plot_hit (b : Byte) (r : Nat) (d : Blit) {n : Nat} (hn : n ≤ 64) :
    ((List.range n).foldl (plot cx cy b r) d).hit = true ↔
      d.hit = true ∨ ∃ col : Fin 64, d.fb[wrapRow cy r][col] = true ∧ rowCovers cx b n col = true := by
  induction n with
  | zero => simp [rowCovers]
  | succ n ih =>
    have hold : ((List.range n).foldl (plot cx cy b r) d).fb[wrapRow cy r][wrapCol cx n] =
        d.fb[wrapRow cy r][wrapCol cx n] := by
      rw [foldl_plot_pixel b r d (Nat.le_of_succ_le hn), rowCovers_wrapCol_self hn, Bool.and_false, Bool.xor_false]
    rw [List.range_succ, List.foldl_append, List.foldl_cons, List.foldl_nil, plot_hit, hold, Bool.or_eq_true,
      ih (Nat.le_of_succ_le hn)]
    simp only [rowCovers_succ, Bool.or_eq_true, Bool.and_eq_true, decide_eq_true_eq, and_or_left, exists_or, or_assoc]
    refine or_congr_right (or_congr_right ?_)
    constructor
    · rintro ⟨hbit, hon⟩
      exact ⟨_, hon, hbit, rfl⟩
    · rintro ⟨_, hon, hbit, rfl⟩
      exact ⟨hbit, hon⟩

/-- A sprite turns a pixel off exactly when it covers a pixel that was on before the blit: no row before it has touched
that pixel. -/
theorem blitRows_hit (rows : List Byte) (r : Nat) (d : Blit) (hlen : rows.length ≤ 32) :
    (blitRows cx cy rows r d).hit = true ↔
      d.hit = true ∨ ∃ (row : Fin 32) (col : Fin 64), d.fb[row][col] = true ∧ rowsCover cx cy rows r row col = true := by
  induction rows generalizing r d with
  | nil => simp [blitRows, rowsCover]
  | cons b rows ih =>
    have hold {row : Fin 32} {col : Fin 64} (h : rowsCover cx cy rows (r + 1) row col = true) :
        (blitRow cx cy b r d).fb[row][col] = d.fb[row][col] := by
      rw [blitRow, foldl_plot_pixel b r d (by decide), decide_eq_false (wrapRow_ne_of_rowsCover hlen h),
        Bool.false_and, Bool.xor_false]
    rw [blitRows, ih _ _ (Nat.le_of_succ_le hlen), blitRow, foldl_plot_hit b r d (by decide), ← blitRow, or_assoc]
    refine or_congr_right ?_
    constructor
    · rintro (⟨col, hon, hcovers⟩ | ⟨row, col, hon, hcovers⟩)
      · exact ⟨_, col, hon, rowsCover_cons_iff.2 (.inl ⟨rfl, hcovers⟩)⟩
      · exact ⟨row, col, hold hcovers ▸ hon, rowsCover_cons_iff.2 (.inr hcovers)⟩
    · rintro ⟨row, col, hon, hcovers⟩
      rcases rowsCover_cons_iff.1 hcovers with ⟨rfl, hrow⟩ | hrows
      · exact .inl ⟨col, hon, hrow⟩
      · exact .inr ⟨row, col, (hold hrows).trans hon, hrows⟩

end Collision

/-! ### The state after a draw -/

section Drawn

variable {s : State} {x y : RegIdx} {n : Nibble} {row : Fin 32} {col : Fin 64}

/-- A draw turns a pixel off exactly when its sprite covers an on pixel (R191, R192). -/
theorem blit_hit :
    (s.blit x y n).hit = true ↔ ∃ row col, s.pixel row col = true ∧ SpriteCovers s x y n row col := by
  have hn := n.isLt
  rw [State.blit, blitRows_hit _ _ _ (by rw [length_bytesAt]; omega)]
  simp only [rowsCover_bytesAt, Bool.false_eq_true, false_or]
  rfl

theorem flagByte_eq_one_iff {c : Bool} : flagByte c = 1 ↔ c = true := by cases c <;> decide

theorem flagByte_eq_zero_iff {c : Bool} : flagByte c = 0 ↔ c = false := by cases c <;> decide

/-- `s` after a draw of `n` rows from `I` on, `PC` advanced (R191). -/
def State.drawn (s : State) (x y : RegIdx) (n : Nibble) : State :=
  ((s.setFb (s.blit x y n).fb).setReg vf (flagByte (s.blit x y n).hit)).advance

/-- A draw of no rows, or of rows inside memory, is carried out (R80, R191). -/
theorem exec_drw_of_inside (h : n = 0 ∨ s.i.toNat + n.toNat ≤ 0x1000) : exec (.drw x y n) s = .next (s.drawn x y n) :=
  exec_drw_of_le (h.imp_left (congrArg BitVec.toNat))

theorem exec_drw_of_outside (hn : n ≠ 0) (h : 0x1000 < s.i.toNat + n.toNat) :
    exec (.drw x y n) s = .next (s.raiseFatal (memFatal s.i.toNat)) :=
  orRaise_readBlock_of_lt (Nat.pos_of_ne_zero fun h0 => hn (BitVec.eq_of_toNat_eq h0)) h

theorem drawn_pixel :
    (s.drawn x y n).pixel row col = true ↔ ¬ (s.pixel row col = true ↔ SpriteCovers s x y n row col) := blit_pixel

theorem drawn_vf : (s.drawn x y n).reg 15 = flagByte (s.blit x y n).hit := setReg_reg_same _ vf _

theorem drawn_vf_eq_one_iff :
    (s.drawn x y n).reg 15 = 1 ↔ ∃ row col, s.pixel row col = true ∧ SpriteCovers s x y n row col := by
  rw [drawn_vf, flagByte_eq_one_iff, blit_hit]

theorem drawn_vf_eq_zero_iff :
    (s.drawn x y n).reg 15 = 0 ↔ ¬ ∃ row col, s.pixel row col = true ∧ SpriteCovers s x y n row col := by
  rw [drawn_vf, flagByte_eq_zero_iff, Bool.eq_false_iff, Ne, blit_hit]

/-- A frame relative to a state with another framebuffer is, but for the pixels, a frame relative to the state itself. -/
theorem RegisterFrame.but_pixels {rs : List RegIdx} {fb : Framebuffer} {t : State}
    (h : RegisterFrame rs (s.setFb fb) t) :
    SameRegsExcept rs s t ∧ t.i = s.i ∧ SameTimers s t ∧ SameStack s t ∧ SameMemory s t ∧ SameHidden s t := by
  obtain ⟨hregs, hi, htimers, hstack, hmem, -, hhidden⟩ := h
  exact ⟨hregs, hi, htimers, hstack, hmem, hhidden⟩

/-- A draw leaves its own operands alone unless they name `VF`, so a second draw's sprite lies where the first's did. -/
theorem spriteCovers_drawn (hx : x ≠ 15) (hy : y ≠ 15) :
    SpriteCovers (s.drawn x y n) x y n row col ↔ SpriteCovers s x y n row col := by
  have hregx : (s.drawn x y n).reg x = s.reg x := setReg_reg_other _ _ hx
  have hregy : (s.drawn x y n).reg y = s.reg y := setReg_reg_other _ _ hy
  rw [SpriteCovers, hregx, hregy]
  rfl

end Drawn

/-- Settles O44: the framebuffer and `PC` are all that is written, and the framebuffer written is the clear one. -/
theorem clearScreenTurnsEveryPixelOff : Obligations.ClearScreenTurnsEveryPixelOff :=
  ⟨encodes_rowOf (i := .cls) rfl, fun s =>
    ⟨(s.setFb clearFb).advance, rfl, clearFb_pixel, rfl, (frame_setPc (s.setFb clearFb) _).but_pixels⟩⟩

/-- Settles O45: the sprite's pixels are all different, so each is inverted once and the hit is judged on the old
screen. -/
theorem drawXorsTheSpriteImage : Obligations.DrawXorsTheSpriteImage :=
  ⟨encodes_rowOf (i := .drw 0 0 0) rfl, fun x y n s =>
    ⟨fun h => ⟨s.drawn x y n, exec_drw_of_inside h, fun _ _ => drawn_pixel, drawn_vf_eq_one_iff.2,
        drawn_vf_eq_zero_iff.2, rfl, (frame_setReg (s.setFb (s.blit x y n).fb) vf _).but_pixels⟩,
      exec_drw_of_outside⟩⟩

/-- Settles O46: both draws cover the same pixels, so the second inverts back what the first inverted, and a covered
pixel is on between them exactly when it was off at first. -/
theorem drawTwiceRestoresTheScreen : Obligations.DrawTwiceRestoresTheScreen := by
  intro x y n s hx hy h
  refine ⟨s.drawn x y n, (s.drawn x y n).drawn x y n, exec_drw_of_inside h, exec_drw_of_inside h,
    fun row col => ?_, ?_⟩
  · rw [Bool.eq_iff_iff, drawn_pixel, drawn_pixel, spriteCovers_drawn hx hy]
    tauto
  · rw [drawn_vf_eq_one_iff]
    refine exists₂_congr fun row col => ?_
    rw [drawn_pixel, spriteCovers_drawn hx hy, ← Bool.not_eq_true]
    tauto

end Sys2Proof.Machine

/-! PROOFS about the keypad, timer and sound instructions: which key a skip tests, which key wait-key takes, and what
the tick after set-sound sends. -/

namespace Sys2Proof.Machine

section KeypadTimers

variable {s : State} {x : RegIdx}

/-- wait-key takes a key as soon as one is down, and the least of those (R203). -/
theorem exec_waitKey_pressed (h : s.keys ≠ 0) :
    ∃ k < 16, s.keys.getLsbD k = true ∧ (∀ j < k, s.keys.getLsbD j = false) ∧
      exec (.waitKey x) s = .next (s.setReg x (BitVec.ofNat 8 k)).advance := by
  cases hk : leastKey s.keys with
  | none => exact absurd ((leastKey_eq_none s.keys).1 hk) h
  | some k =>
    obtain ⟨hlt, hdown, hleast⟩ := (leastKey_eq_some s.keys k).1 hk
    exact ⟨k, hlt, hdown, hleast, by simp only [exec, execWaitKey, hk]⟩

/-- Writing the timers and advancing leaves the rest of the state alone (R204, R205). -/
theorem frame_setTimers (s : State) (d e : Byte) :
    SameRegsExcept [] s ((s.setDt d).setSt e).advance ∧ ((s.setDt d).setSt e).advance.i = s.i ∧
      SameStack s ((s.setDt d).setSt e).advance ∧ SameMemory s ((s.setDt d).setSt e).advance ∧
      SamePixels s ((s.setDt d).setSt e).advance ∧ SameHidden s ((s.setDt d).setSt e).advance := by
  obtain ⟨hregs, hi, -, hrest⟩ := frame_setPc ((s.setDt d).setSt e) (s.pc + 2)
  exact ⟨hregs, hi, hrest⟩

/-- The tick after a write of `b` to `ST` sends the pulses of a tick that finds `b` there (R129, R205). -/
theorem tickEvent_sound_setSt (s : State) (b : Byte) {pulses : List SoundPulse} (h : tickPulses (s.setSt b) = pulses) :
    (tickEvent (s.setSt b).advance).sound = s.sound ++ pulses :=
  congrArg (s.sound ++ ·) h

end KeypadTimers

/-- Settles O48: both skips test the bit of the keys port that the low four bits of `V[x]` name. -/
theorem keySkipsTestOneKey : Obligations.KeySkipsTestOneKey :=
  ⟨encodes_rowOf (i := .skp 0) rfl, encodes_rowOf (i := .sknp 0) rfl, fun _ _ =>
    ⟨exec_skip_if rfl Iff.rfl, exec_skip_unless rfl Bool.not_iff_not⟩⟩

/-- Settles O49: the least key, if there is one, is below 16 and so stands unreduced in the byte written. -/
theorem waitKeyPollsOrTakesTheLeastKey : Obligations.WaitKeyPollsOrTakesTheLeastKey := by
  refine ⟨encodes_rowOf (i := .waitKey 0) rfl, fun x s => ⟨exec_waitKey_idle, fun h => ?_⟩⟩
  obtain ⟨k, hlt, hdown, hleast, hexec⟩ := exec_waitKey_pressed (x := x) h
  refine ⟨_, hexec, k, hlt, hdown, hleast, ?_, rfl, frame_setReg s x _⟩
  rw [advance_reg, setReg_reg_same, BitVec.toNat_ofNat]
  exact Nat.mod_eq_of_lt (by omega)

/-- Settles O50: set-sound leaves `TONE` and the pulses as they were, so the tick after it is the tick of R129 on the
value written. -/
theorem timerInstructionsMoveOneByte : Obligations.TimerInstructionsMoveOneByte := by
  refine ⟨encodes_rowOf (i := .readDelay 0) rfl, encodes_rowOf (i := .setDelay 0) rfl,
    encodes_rowOf (i := .setSound 0) rfl, fun x s =>
      ⟨⟨_, rfl, setReg_reg_same s x s.dt, rfl, frame_setReg s x _⟩,
        ⟨_, rfl, rfl, rfl, rfl, frame_setTimers s (s.reg x) s.st⟩, ?_⟩⟩
  obtain ⟨hregs, hi, hstack, hmem, hpixels, hhidden⟩ := frame_setTimers s s.dt (s.reg x)
  refine ⟨_, rfl, rfl, rfl, rfl, hregs, hi, hstack, hmem, hpixels, hhidden, fun hb ht => ?_, fun hb ht => ?_,
    fun hb ht => ?_, fun hb ht => ?_, fun hb ht => ?_, fun hb ht => ?_⟩
  case refine_1 | refine_2 => simpa [ht] using tickEvent_sound_setSt s (s.reg x) (tickPulses_of_st_zero hb)
  case refine_3 | refine_4 => simpa [ht] using tickEvent_sound_setSt s (s.reg x) (tickPulses_of_st_one hb)
  case refine_5 | refine_6 => simpa [ht] using tickEvent_sound_setSt s (s.reg x) (tickPulses_of_one_lt_st hb)

end Sys2Proof.Machine

/-! PROOFS about unrecognized words: which words they are, and that executing one only moves `PC`. -/

namespace Sys2Proof

/-! ### Which words are unrecognized (R102) -/

section UnrecognizedWords

variable {w : Word}

theorem withFieldsOf_decode0 (w : Word) : (decode0 w).withFieldsOf w = decode0 w := by
  unfold decode0
  split_ifs <;> rfl

theorem withFieldsOf_decode8 (w : Word) : (decode8 w).withFieldsOf w = decode8 w := by
  unfold decode8
  split <;> rfl

theorem withFieldsOf_decodeE (w : Word) : (decodeE w).withFieldsOf w = decodeE w := by
  unfold decodeE
  split_ifs <;> rfl

theorem withFieldsOf_decodeF (w : Word) : (decodeF w).withFieldsOf w = decodeF w := by
  unfold decodeF
  split_ifs <;> rfl

/-- The operands of a decoded instruction are the fields of its word (R91). -/
theorem withFieldsOf_decodeWord (w : Word) : (decodeWord w).withFieldsOf w = decodeWord w := by
  unfold decodeWord
  split
  case h_1 => exact withFieldsOf_decode0 w
  case h_9 => exact withFieldsOf_decode8 w
  case h_15 => exact withFieldsOf_decodeE w
  case h_16 => exact withFieldsOf_decodeF w
  all_goals rfl

/-- A word is unrecognized exactly when it selects an unrecognized row and that row may hold it. -/
theorem decodeWord_unrecognized_iff : (decodeWord w).recognized = false ↔
    ∃ i : Instr, i.recognized = false ∧ selects (rowOf i).1 (rowOf i).2 w ∧ (i.withFieldsOf w).wf = true := by
  constructor
  · intro h
    obtain ⟨hs, hwf⟩ := fits_decodeWord w
    exact ⟨decodeWord w, h, hs, (withFieldsOf_decodeWord w).symm ▸ hwf⟩
  · rintro ⟨i, hi, hs, hwf⟩
    rw [decodeWord_of_selects hs hwf, recognized_withFieldsOf, hi]

/-- The low nibbles family 8 leaves to the unrecognized words (R96). -/
theorem unrec8_wf_iff_mem {x y : RegIdx} {n : Nibble} :
    (Instr.unrec8 x y n).wf = true ↔ n ∈ ([0x8, 0x9, 0xA, 0xB, 0xC, 0xD, 0xF] : List Nibble) := by
  rw [unrec8_wf_iff]
  revert n
  decide

theorem unrecE_wf_iff_notMem {x : RegIdx} {kk : Byte} : (Instr.unrecE x kk).wf = true ↔ kk ∉ assignedE := by
  simp [Instr.wf]

/-- The unrecognized words, family by family (R102). -/
theorem decodeWord_unrecognized_iff_families : (decodeWord w).recognized = false ↔
    (fieldOp w = 0x0 ∧ w ≠ 0x00E0 ∧ w ≠ 0x00EE) ∨
    (fieldOp w = 0x8 ∧ fieldN w ∈ ([0x8, 0x9, 0xA, 0xB, 0xC, 0xD, 0xF] : List Nibble)) ∨
    (fieldOp w = 0xE ∧ fieldKk w ∉ assignedE) ∨
    (fieldOp w = 0xF ∧ fieldKk w ∉ assignedF) := by
  rw [decodeWord_unrecognized_iff]
  constructor
  · rintro ⟨i, hi, hs, hwf⟩
    cases i <;> dsimp only [rowOf] at hs
    case sys =>
      have ho := fieldOp_of_selects hs rfl
      exact .inl ⟨ho, (sys_wf_iff ho).1 hwf⟩
    case unrec8 => exact .inr (.inl ⟨fieldOp_of_selects hs rfl, unrec8_wf_iff_mem.1 hwf⟩)
    case unrecE => exact .inr (.inr (.inl ⟨fieldOp_of_selects hs rfl, unrecE_wf_iff_notMem.1 hwf⟩))
    case unrecF => exact .inr (.inr (.inr ⟨fieldOp_of_selects hs rfl, unrecF_wf_iff.1 hwf⟩))
    all_goals cases hi
  · rintro (⟨ho, hw⟩ | ⟨ho, hn⟩ | ⟨ho, hk⟩ | ⟨ho, hk⟩)
    · exact ⟨.sys 0, rfl, selects_of_op ho rfl, (sys_wf_iff ho).2 hw⟩
    · exact ⟨.unrec8 0 0 0, rfl, selects_of_op ho rfl, unrec8_wf_iff_mem.2 hn⟩
    · exact ⟨.unrecE 0 0, rfl, selects_of_op ho rfl, unrecE_wf_iff_notMem.2 hk⟩
    · exact ⟨.unrecF 0 0, rfl, selects_of_op ho rfl, unrecF_wf_iff.2 hk⟩

end UnrecognizedWords

end Sys2Proof

namespace Sys2Proof.Machine

/-! ### What an unrecognized instruction does (R210, R211) -/

section UnrecognizedInstr

variable {i : Instr}

theorem exec_of_unrecognized (h : i.recognized = false) (s : State) : exec i s = .next s.advance := by
  cases i with
  | sys | unrec8 | unrecE | unrecF => rfl
  | _ => cases h

/-- An unrecognized instruction reads neither input port (R36). -/
theorem samplePorts_of_unrecognized (h : i.recognized = false) (s : State) (keys : Word) (rnd : Byte) :
    s.samplePorts i keys rnd = s := by
  cases i with
  | sys | unrec8 | unrecE | unrecF => rfl
  | _ => cases h

end UnrecognizedInstr

/-- Settles O51: a word is unrecognized by its family's own test, and each of the four rows only advances. -/
theorem unrecognizedWordsOnlyAdvancePc : Obligations.UnrecognizedWordsOnlyAdvancePc :=
  ⟨fun _ => decodeWord_unrecognized_iff_families, fun _ s hi =>
    ⟨s.advance, exec_of_unrecognized hi s, rfl, frame_setPc s _, samplePorts_of_unrecognized hi s⟩⟩

end Sys2Proof.Machine

/-! PROOFS about exceptions: what taking a fatal condition does, who raises which, and what clears the record. -/

namespace Sys2Proof.Machine

/-! ### The fault record -/

section FaultRecord

variable {s t : State}

theorem faultValid_eq_true_iff : s.faultValid = true ↔ s.runState = .faulted := beq_iff_eq

theorem faultValid_of_running (h : s.runState = .running) : s.faultValid = false := by simp [State.faultValid, h]

/-- The recorded code tells the condition (R220). -/
theorem number_injective : Function.Injective FatalCode.number := by
  intro c d h
  cases c <;> cases d <;> simp [FatalCode.number] at h ⊢

/-- The executor's state, the fault code and the fault value (R31). -/
def SameFaultRecord (s t : State) : Prop :=
  t.runState = s.runState ∧ t.faultCode = s.faultCode ∧ t.faultInfo = s.faultInfo

theorem SameFaultRecord.refl (s : State) : SameFaultRecord s s := ⟨rfl, rfl, rfl⟩

/-- Taking a fatal condition moves no stack entry and not the depth (R227). -/
theorem sameStack_raiseFatal (s : State) (f : Fatal) : SameStack s (s.raiseFatal f) := ⟨rfl, fun _ => rfl⟩

/-- A program image may be loaded over a recorded fault, which stays (R230, R252). -/
theorem sameFaultRecord_loadRomEvent (bytes : List Byte) (s : State) : SameFaultRecord s (loadRomEvent bytes s) := by
  unfold loadRomEvent
  split
  · exact ⟨rfl, rfl, rfl⟩
  · exact .refl s

/-- In `FAULTED` a step is idle, and neither a tick nor a load writes the record (R128, R228 to R230). -/
theorem sameFaultRecord_hostEvent {e : HostEvent} (hs : s.runState = .faulted) (he : e ≠ .reset)
    (h : hostEvent e s = .next t) : SameFaultRecord s t := by
  cases e with
  | step keys rnd =>
    obtain rfl : s = t := Host.Outcome.next.inj ((stepEvent_faulted keys rnd hs).symm.trans h)
    exact .refl s
  | tick => exact Host.Outcome.next.inj h ▸ ⟨rfl, rfl, rfl⟩
  | reset => exact absurd rfl he
  | loadRom bytes => exact Host.Outcome.next.inj h ▸ sameFaultRecord_loadRomEvent bytes s

end FaultRecord

/-! ### The table of R220 -/

section FatalTable

variable {i : Instr} {s t : State} {f : Fatal} {c : FatalCode}

/-- An instruction that meets its condition takes it, and writes nothing else (R226). -/
theorem exec_of_fatalOf (h : fatalOf i s = some f) : exec i s = .next (s.raiseFatal f) := by
  cases i with
  | call nnn =>
    obtain ⟨hd, rfl⟩ := of_guarded_eq_some h
    exact exec_call_of_full (Fin.ext hd)
  | ret =>
    obtain ⟨hd, rfl⟩ := of_guarded_eq_some h
    exact exec_ret_of_empty (Fin.ext hd)
  | drw x y n =>
    obtain ⟨⟨hn, hm⟩, rfl⟩ := of_guarded_eq_some h
    exact exec_drw_of_outside (fun h0 => by simp [h0] at hn) (by omega)
  | storeBcd x =>
    obtain ⟨hm, rfl⟩ := of_guarded_eq_some h
    exact exec_storeBcd_of_lt (by omega)
  | storeRegs x =>
    obtain ⟨hm, rfl⟩ := of_guarded_eq_some h
    exact exec_storeRegs_of_lt hm
  | loadRegs x =>
    obtain ⟨hm, rfl⟩ := of_guarded_eq_some h
    exact exec_loadRegs_of_lt hm
  | _ => cases h

/-- Of all effects only a fault writes the record. -/
theorem Effect.sameFaultRecord (he : Effect s i t) (h : fatalOf i s = none) : SameFaultRecord s t := by
  cases he with
  | fault hf => rw [h] at hf; cases hf
  | _ => exact ⟨rfl, rfl, rfl⟩

/-- The instructions that can raise a condition (R220); a fetch alone raises `PC_OOR`. -/
def Raises : FatalCode → Instr → Prop
  | .stackOverflow, i => ∃ nnn, i = .call nnn
  | .stackUnderflow, i => i = .ret
  | .pcOor, _ => False
  | .memOor, i => (∃ x y n, i = .drw x y n) ∨ (∃ x, i = .storeBcd x) ∨ (∃ x, i = .storeRegs x) ∨ ∃ x, i = .loadRegs x

theorem raises_of_fatalOf (h : fatalOf i s = some f) : Raises f.code i := by
  cases i with
  | call nnn => exact (of_guarded_eq_some h).2 ▸ ⟨nnn, rfl⟩
  | ret => exact (of_guarded_eq_some h).2 ▸ rfl
  | drw x y n => exact (of_guarded_eq_some h).2 ▸ .inl ⟨x, y, n, rfl⟩
  | storeBcd x => exact (of_guarded_eq_some h).2 ▸ .inr (.inl ⟨x, rfl⟩)
  | storeRegs x => exact (of_guarded_eq_some h).2 ▸ .inr (.inr (.inl ⟨x, rfl⟩))
  | loadRegs x => exact (of_guarded_eq_some h).2 ▸ .inr (.inr (.inr ⟨x, rfl⟩))
  | _ => cases h

/-- The code that an executed instruction records names the instructions that can have raised it. -/
theorem raises_of_exec (hrun : s.runState = .running) (h : exec i s = .next t) (hf : t.runState = .faulted)
    (hc : t.faultCode = c.number) : Raises c i := by
  obtain ⟨f, hfatal, rfl⟩ := (effect_of_exec h).eq_raiseFatal hrun hf
  have hcode : f.code = c := number_injective hc
  exact hcode ▸ raises_of_fatalOf hfatal

end FatalTable

/-- Settles O12: one record update, read field by field. -/
theorem raiseFatalDoesExactlyThis : Obligations.RaiseFatalDoesExactlyThis :=
  fun s f => ⟨rfl, rfl, rfl, faultValid_eq_true_iff.2 rfl, fun _ _ => rfl, rfl, rfl, ⟨rfl, rfl⟩,
    sameStack_raiseFatal s f, fun _ => rfl, fun _ _ => rfl, rfl, rfl, rfl, rfl, rfl, rfl, rfl⟩

/-- Settles O10: every event but reset keeps the record, and reset writes it whatever it was. -/
theorem onlyResetLeavesFaulted : Obligations.OnlyResetLeavesFaulted := by
  refine ⟨fun e s t hs he h => ?_, fun s => ⟨resetEvent s, rfl, rfl, rfl, rfl, faultValid_of_running rfl⟩⟩
  obtain ⟨hrun, hcode, hinfo⟩ := sameFaultRecord_hostEvent hs he h
  have hfaulted := hrun.trans hs
  exact ⟨hfaulted, hcode, hinfo, faultValid_eq_true_iff.2 hfaulted⟩

/-- Settles O13: call on each side of its guard, and the code names call alone. -/
theorem stackOverflowIsRaisedByCallAtDepthSixteen : Obligations.StackOverflowIsRaisedByCallAtDepthSixteen :=
  ⟨fun _ s hd => ⟨_, exec_call_of_full hd, rfl, rfl, sameStack_raiseFatal s _, rfl⟩,
    fun _ _ hd => ⟨_, exec_call_of_lt hd, rfl, rfl⟩,
    fun _ _ _ => raises_of_exec⟩

/-- Settles O14: return on an empty stack, and the code names return alone. -/
theorem stackUnderflowIsRaisedByReturnAtDepthZero : Obligations.StackUnderflowIsRaisedByReturnAtDepthZero :=
  ⟨fun s hd => ⟨_, exec_ret_of_empty hd, rfl, rfl, faultValid_eq_true_iff.2 rfl, sameStack_raiseFatal s _, rfl⟩,
    fun _ _ _ => raises_of_exec⟩

/-- Settles O15: a condition of the table is taken, and where there is none every effect keeps the record. -/
theorem fatalConditionsAreExactlyTheTable : Obligations.FatalConditionsAreExactlyTheTable := by
  refine fun i s => ⟨fun f h => exec_of_fatalOf h, fun h => ?_⟩
  obtain ⟨t, ht, he⟩ := exec_effect i s
  exact ⟨t, ht, he.sameFaultRecord h⟩

end Sys2Proof.Machine

/-! PROOFS about reset and `load_rom`: what memory reads after the font or a program image is written, and that the
first reset of a constructed core is the state of R38. -/

namespace Sys2Proof.Machine

section WrittenBytes

variable {m : Memory} {a k : Nat} {bytes image : List Byte}

theorem getElem?_eq_read_writeBytes {base : Nat} (hm : m.wf) (hb : base + bytes.length ≤ Config.memSize)
    (hk : k < bytes.length) : bytes[k]? = some ((m.writeBytes base bytes).read (base + k)) := by
  rw [read_writeBytes_inside m base k bytes hk hb hm, List.getElem?_eq_getElem hk]

theorem getElem?_eq_read_writeImage (hm : m.wf) (hi : image.length ≤ Config.romMax) (hk : k < image.length) :
    image[k]? = some ((m.writeBytes Config.entry image).read (Config.entry + k)) :=
  getElem?_eq_read_writeBytes hm (Nat.add_le_add_left hi Config.entry) hk

/-- The 80 bytes of the font, or as many zeros, stand from address 0 (R35, R250). -/
theorem getElem?_eq_read_writeBytes_zero (hm : m.wf) (hb : bytes.length = 80) (ha : a < 80) :
    bytes[a]? = some ((m.writeBytes 0 bytes).read a) := by
  have h := getElem?_eq_read_writeBytes (base := 0) hm (by rw [hb]; decide) (hb ▸ ha)
  rwa [Nat.zero_add] at h

/-- Memory that reads as font and zeros everywhere is the empty list: a canonical list has no entry for what an unlisted
address reads as. -/
theorem eq_nil_of_read_eq_unlisted (hm : m.wf) (h : ∀ a, m.read a = unlisted a) : m = [] := by
  cases m with
  | nil => rfl
  | cons c m =>
    obtain ⟨-, hc⟩ := hm.2 c List.mem_cons_self
    exact absurd (by simpa [Memory.read] using h c.1) hc

end WrittenBytes

section Reset

variable {s : State} {a : Nat}

/-- Reset keeps the image and the model's own fields, and sets everything but memory to the values of R38. -/
theorem resetEvent_eq (s : State) : resetEvent s =
    { State.reset with
      mem := (resetEvent s).mem
      rom := s.rom
      keys := s.keys
      rnd := s.rnd
      sound := s.sound
      schedule := s.schedule
      samples := s.samples } := rfl

theorem resetEvent_mem_wf (hm : s.mem.wf) (hi : s.rom.length ≤ Config.romMax) : (resetEvent s).mem.wf :=
  writeImage_wf (writeBytes_wf 0 Config.font (by decide) hm) hi

/-- An image starts above the font, so it covers no byte of it (R6, R251). -/
theorem getElem?_font_eq_read_resetEvent (hm : s.mem.wf) (ha : a < 80) :
    Config.font[a]? = some ((resetEvent s).mem.read a) := by
  have hbelow : (resetEvent s).mem.read a = (s.mem.writeBytes 0 Config.font).read a :=
    read_writeBytes_outside _ _ _ _ (.inl (ha.trans (by decide)))
  rw [hbelow, ← getElem?_eq_read_writeBytes_zero hm length_font ha]

theorem read_resetEvent_of_outside (s : State) (hfont : 80 ≤ a)
    (himage : a < Config.entry ∨ Config.entry + s.rom.length ≤ a) : (resetEvent s).mem.read a = s.mem.read a :=
  (read_writeBytes_outside _ _ _ _ himage).trans
    (read_writeBytes_outside s.mem 0 a Config.font (.inr (by simpa using hfont)))

end Reset

section LoadRom

variable {bytes : List Byte}

theorem loadRomEvent_of_le (s : State) (h : bytes.length ≤ Config.romMax) :
    loadRomEvent bytes s = { s with rom := bytes, mem := s.mem.writeBytes Config.entry bytes } := if_pos h

theorem loadRomEvent_of_lt (s : State) (h : Config.romMax < bytes.length) : loadRomEvent bytes s = s :=
  if_neg (Nat.not_le.2 h)

end LoadRom

section Constructed

/-- The empty list is in canonical form. -/
theorem wf_nil : Memory.wf [] := ⟨.nil, nofun⟩

theorem constructed_mem_wf : State.constructed.mem.wf := writeBytes_wf 0 _ (by decide) wf_nil

/-- Zeros cover the font's 80 bytes, and above them every unlisted address reads 0 (R250). -/
theorem read_constructed (a : Nat) : State.constructed.mem.read a = 0 := by
  by_cases ha : a < 80
  · have hlen : (List.replicate Config.fontSize (0 : Byte)).length = 80 := List.length_replicate
    have h := getElem?_eq_read_writeBytes_zero wf_nil hlen ha
    rw [List.getElem?_replicate_of_lt (n := Config.fontSize) ha] at h
    exact (Option.some.inj h).symm
  · have hout : State.constructed.mem.read a = unlisted a :=
      read_writeBytes_outside [] 0 a _ (.inr (by simpa [Config.fontSize] using ha))
    rw [hout, unlisted_of_ge (Nat.le_of_not_lt ha)]

/-- The first reset of a constructed core leaves font and zeros in memory (R38, R253). -/
theorem read_resetEvent_constructed (a : Nat) : (resetEvent State.constructed).mem.read a = unlisted a := by
  by_cases ha : a < 80
  · have h := getElem?_font_eq_read_resetEvent constructed_mem_wf ha
    rw [font_getElem? ha] at h
    exact (Option.some.inj h).symm
  · have hge := Nat.le_of_not_lt ha
    rw [read_resetEvent_of_outside State.constructed hge (Nat.lt_or_ge a Config.entry :), read_constructed,
      unlisted_of_ge hge]

theorem resetEvent_constructed_mem : (resetEvent State.constructed).mem = [] :=
  eq_nil_of_read_eq_unlisted (resetEvent_mem_wf constructed_mem_wf (Nat.zero_le _)) read_resetEvent_constructed

end Constructed

/-- Settles O3: the cleared fields are literals of the reset event; memory is the old one under the font and the
image. -/
theorem resetReinitialisesEverythingButMemory : Obligations.ResetReinitialisesEverythingButMemory :=
  fun s hm hi => ⟨fun _ => Vector.getElem_replicate _, rfl, rfl, rfl, rfl, rfl, fun _ => Vector.getElem_replicate _,
    clearFb_pixel, fun _ ha => getElem?_font_eq_read_resetEvent hm ha,
    fun _ hk => getElem?_eq_read_writeImage (writeBytes_wf 0 Config.font (by decide) hm) hi hk,
    fun _ hfont himage => read_resetEvent_of_outside s hfont himage, rfl, rfl, rfl, rfl, rfl, rfl⟩

/-- Settles O4: the length decides whether the image is kept and written or the state stays. -/
theorem loadRomKeepsAndCopiesTheImage : Obligations.LoadRomKeepsAndCopiesTheImage := by
  refine fun s bytes hm => ⟨fun hi => ?_, loadRomEvent_of_lt s⟩
  rw [loadRomEvent_of_le s hi]
  exact ⟨rfl, fun _ hk => getElem?_eq_read_writeImage hm hi hk,
    fun a ha => read_writeBytes_outside s.mem Config.entry a bytes ha, rfl⟩

/-- Settles O2: reset sets every field but memory to the value of `State.reset`, and memory becomes the empty list. -/
theorem firstResetOfAConstructedCore : Obligations.FirstResetOfAConstructedCore := by
  refine ⟨read_constructed, ?_⟩
  rw [resetEvent_eq, resetEvent_constructed_mem]
  rfl

end Sys2Proof.Machine
